-- ==== Sys2Proof/Word.lean ====
section
/-! DEFINITION. The word types of the spec's notation (rules R8 and R9). -/

namespace Sys2Proof

/-- `u4` of rule R9: a clock/data word or a keypad code. -/
abbrev U4 := BitVec 4

/-- `u8` of rule R9. -/
abbrev U8 := BitVec 8

/-- `u16` of rule R9: a counter half. -/
abbrev U16 := BitVec 16

/-- `u32` of rule R9: a timestamp, an infrared message, a credential. -/
abbrev U32 := BitVec 32

/-- The 48-bit operation-select word of rule R101. -/
abbrev SelectWord := BitVec 48

end Sys2Proof
end

