-- ==== Sys2Proof/Config.lean ====
section
/-! DEFINITION. The implementation parameters of rule R7: the ones an implementation chooses are
fields of `Params`, the OPEN ones have no value here, and the others are constants. -/

namespace Sys2Proof

/-- `TICK_NS` (R7, R12): the three periods the hardware counter may have. -/
inductive TickPeriod where
  | ns4000
  | ns500
  | ns125
  deriving DecidableEq, Repr, Inhabited

/-- The three abstract values of the translation option (R44). -/
inductive XlateOption where
  | none
  | fmt32
  | clockData
  deriving DecidableEq, Repr, Inhabited

/-- `edge_kind` (R204). -/
inductive EdgeKind where
  | rise
  | fall
  | tick
  deriving DecidableEq, Repr, Inhabited

/-- The three sentinel words of the clock/data frames (R129, R130): `CD_START`, `CD_SEP`, `CD_END`. -/
inductive Sentinel where
  | start
  | sep
  | stop
  deriving DecidableEq, Repr, Inhabited

/-- `KEYFRAME` (R7, R130): where the two variable slots stand among the six words, and which sentinel
each other word is. `slot2` stands `slot2Gap + 1` places after `slot1`, counted modulo six, so that the
two slots are always two different places. The entries of `fill` at the slots' places are not used. -/
structure KeyLayout where
  slot1    : Fin 6
  slot2Gap : Fin 5
  fill     : Vector Sentinel 6
  deriving DecidableEq, Repr, Inhabited

/-- The parameters of rule R7 that an implementation chooses. `qcapExp` gives
`QCAP = 2 ^ (qcapExp + 1)`, so `QCAP` is a power of two and at least 2, as R7 asks. -/
structure Params where
  qcapExp   : Nat
  drainMax  : Nat
  nInst     : Nat
  tick      : TickPeriod
  cdStart   : U4
  cdSep     : U4
  cdEnd     : U4
  keyLayout : KeyLayout
  deriving DecidableEq, Repr

/-! ### OPEN parameters and free values: no body, so no proof can know them. -/

/-- `CD_START`, OPEN (R7, D35). -/
opaque Config.cdStart : U4

/-- `CD_SEP`, OPEN (R7, D35). -/
opaque Config.cdSep : U4

/-- `CD_END`, OPEN (R7, D35). -/
opaque Config.cdEnd : U4

/-- `KEYFRAME`, OPEN (R7, D37). -/
opaque Config.keyLayout : KeyLayout

/-- `XLATE_CODE`, OPEN (R7, D31): the option an integer code of the configuration provider names, if any. -/
opaque Config.xlateCode : Int → Option XlateOption

/-- FREE VALUE. EDGEKIND(old, new, 0) where the masked level goes neither from zero to non-zero nor from
non-zero to zero: R204 states no kind there. -/
opaque Config.edgeKindUnstated : U8 → U8 → EdgeKind

/-- FREE VALUE. The hardware ticks of `Wait(us)` at period `tickNs` where `us * 1000` is not a multiple of
the period: R302 states the count only for exact divisions. -/
opaque Config.waitTicksUnstated : Nat → Nat → Nat

/-- Rule R7's values: QCAP 64, DRAIN_MAX 32, N_INST 4, TICK_NS 4000, and the OPEN parameters left open. -/
def Params.default : Params where
  qcapExp   := 5
  drainMax  := 32
  nInst     := 4
  tick      := .ns4000
  cdStart   := Config.cdStart
  cdSep     := Config.cdSep
  cdEnd     := Config.cdEnd
  keyLayout := Config.keyLayout

/-! ### Parameters with a stated value (R7). -/

/-- `WG_MAX_BITS` (R7, R41). -/
def Config.wgMaxBits : Nat := 70

/-- `WG_TIMEOUT_US` (R7). -/
def Config.wgTimeoutUs : Nat := 20000

/-- `IR_RESTART_GAP` (R7, R231). -/
def Config.irRestartGap : Int := 30000

/-- `IR_SYNC_MIN` (R7, R232). -/
def Config.irSyncMin : Int := 4000

/-- `IR_SYNC_MAX` (R7, R232). -/
def Config.irSyncMax : Int := 5000

/-- `IR_REPEAT_MIN` (R7, R233). -/
def Config.irRepeatMin : Int := 2000

/-- `IR_REPEAT_MAX` (R7, R233). -/
def Config.irRepeatMax : Int := 2500

/-- `IR_BIT_THRESHOLD` (R7, R235). -/
def Config.irBitThreshold : Int := 1000

/-- `IR_BIT_MIN` (R7, R234). -/
def Config.irBitMin : Int := 400

/-- `IR_BIT_MAX` (R7, R234). -/
def Config.irBitMax : Int := 1880

/-- `IR_DEAD_MIN` (R7, R234). -/
def Config.irDeadMin : Int := 800

/-- `IR_DEAD_MAX` (R7, R234). -/
def Config.irDeadMax : Int := 1400

/-- `IR_MARK_ABORT` (R7, R237). -/
def Config.irMarkAbort : Int := 11000

/-- `IR_MARK_MIN` (R7, R237). -/
def Config.irMarkMin : Int := 400

/-- `IR_MARK_MAX` (R7, R237). -/
def Config.irMarkMax : Int := 1880

/-- `IR_REPEAT_WINDOW` (R7, R233). -/
def Config.irRepeatWindow : Nat := 262144

/-- `IR_REPEAT_REFRESH` (R7, R233): an accepted repeat does not restart the window. -/
def Config.irRepeatRefresh : Bool := false

/-- `CRED_MOD` (R7, R276). -/
def Config.credMod : Nat := 100000000

/-- `TX32_LOW_US` (R7, R306). -/
def Config.tx32LowUs : Nat := 40

/-- `TX32_HIGH_US` (R7, R306). -/
def Config.tx32HighUs : Nat := 200

/-- `CD_HALF_US` (R7, R310). -/
def Config.cdHalfUs : Nat := 200

/-- `CD_PREAMBLE` (R7, R312). -/
def Config.cdPreamble : Nat := 10

/-- `CD_EPILOGUE` (R7, R312). -/
def Config.cdEpilogue : Nat := 10

/-- `CD_DATA_ACTIVE_LOW` (R7, R310). -/
def Config.cdDataActiveLow : Bool := true

end Sys2Proof
end

