-- ==== Sys2Proof/Syntax.lean ====
section
/-! DEFINITION. The operations of rule R100, one constructor of `Instr` for each row of the opcode
table, and the types of their operands. -/

namespace Sys2Proof

/-- `source_tag` of an EdgeEvent and `source` of an instance (R30, R37). -/
inductive Source where
  | timer
  | pinGroupA
  deriving DecidableEq, Repr, Inhabited

/-- `protocol` of an instance (R37); the variant has the single member Infrared (R208). -/
inductive Protocol where
  | infrared
  deriving DecidableEq, Repr, Inhabited

/-- `clock_rate` of an instance (R37, R206). -/
inductive ClockRate where
  | raw4us
  | ns4000
  | ns500
  | ns125
  deriving DecidableEq, Repr, Inhabited

/-- The EdgeEvent record of rule R30. -/
structure EdgeEvent where
  source    : Source
  tick      : Bool
  level     : U8
  timestamp : U32
  deriving DecidableEq, Repr, Inhabited

/-- The thirteen keys of rule R15: the digits, `*`, `#` and bell. -/
inductive Key where
  | digit (d : Fin 10)
  | star
  | hash
  | bell
  deriving DecidableEq, Repr, Inhabited

/-- The four output lines of rule R45. -/
inductive Signal where
  | tx0
  | tx1
  | txClk
  | txData
  deriving DecidableEq, Repr, Inhabited

/-- The result of WGPOLL (R273). -/
inductive WgResult where
  | nothing
  | noise (n : Nat)
  | zero
  | cred (r : U32)
  | key (code : U4)
  deriving DecidableEq, Repr, Inhabited

/-- The operations, one constructor for each row of the opcode table. One-bit operands are `Bool`
(1 is `true`); a list index into the registry is a `Nat` where no word carries it. -/
inductive Instr where
  -- operations with an operation-select word (R102)
  | reset
  | adv (n : U32)
  | capedge (l : Bool)
  | pgaset (v : U8)
  | wgpulse (k : Bool)
  | isrCapt
  | isrPca
  | isrWg0
  | isrWg1
  | isrTov
  | cli
  | sti
  | now
  | drain
  | irread (i : U8)
  | wgpoll
  | tx32 (v : U32)
  | txcred (v : U32)
  | txkey (c : Key)
  | register (source : Source) (protocol : Protocol) (mask : U8) (rate : ClockRate)
  | drainBegin
  | drainStep
  | drainEnd
  -- sub-operations (R100), with no word of their own
  | stamp (c : U16)
  | enq (e : EdgeEvent)
  | tickenq
  | dispatch (i : Nat) (e : EdgeEvent)
  | discard (i : Nat) (e : EdgeEvent)
  | edgekind (old new : U8) (tick : Bool)
  | conv (rate : ClockRate) (d : U32)
  | irEdge (i : Nat) (kind : EdgeKind) (delta units : Int) (ts : U32)
  | irFallStart (i : Nat)
  | irFallSync (i : Nat)
  | irFallRepeat (i : Nat)
  | irFallAbort (i : Nat)
  | irFallBit (i : Nat) (delta : Int) (ts : U32)
  | irPublish (i : Nat) (ts : U32)
  | irRise (i : Nat) (delta : Int)
  | wgRaw (msg : List Bool)
  | wgCanon (n v : Nat)
  | wgKeymap (code : U4)
  | wgForward (res : WgResult)
  | emit (sig : Signal) (lvl : Bool)
  | wait (us : Nat)
  | tx32Bit (b : Bool)
  | cdBit (b : Bool)
  | cdWord (w : U4)
  | cdFrame (words : List U4)
  deriving DecidableEq, Repr

/-- The three agents of rule R11, and the sub-operations, which no agent issues alone (R100). -/
inductive Agent where
  | env
  | irq
  | poll
  | sub
  deriving DecidableEq, Repr

/-- Which agent performs an operation (R100, R351). -/
def Instr.agent : Instr → Agent
  | .adv _ | .capedge _ | .pgaset _ | .wgpulse _ => .env
  | .isrCapt | .isrPca | .isrWg0 | .isrWg1 | .isrTov => .irq
  | .reset | .register _ _ _ _ | .cli | .sti | .now | .drain | .drainBegin | .drainStep | .drainEnd
  | .irread _ | .wgpoll | .tx32 _ | .txcred _ | .txkey _ => .poll
  | .stamp _ | .enq _ | .tickenq | .dispatch _ _ | .discard _ _ | .edgekind _ _ _ | .conv _ _
  | .irEdge _ _ _ _ _ | .irFallStart _ | .irFallSync _ | .irFallRepeat _ | .irFallAbort _
  | .irFallBit _ _ _ | .irPublish _ _ | .irRise _ _ | .wgRaw _ | .wgCanon _ _ | .wgKeymap _
  | .wgForward _ | .emit _ _ | .wait _ | .tx32Bit _ | .cdBit _ | .cdWord _ | .cdFrame _ => .sub

end Sys2Proof
end

