-- ==== Sys2Proof/WellFormed.lean ====
section
/-! DEFINITION. Which operands an operation may have (R103, R104, R110, R200 and the operand lines of
the operations' rules), as decidable checks. -/

namespace Sys2Proof

/-- R200: `mask` has exactly one bit set. -/
def oneBit (m : U8) : Bool :=
  m = 0x01 || m = 0x02 || m = 0x04 || m = 0x08 || m = 0x10 || m = 0x20 || m = 0x40 || m = 0x80

/-- R200: the legal operands of REGISTER. -/
def registerLegal (source : Source) (mask : U8) : Bool :=
  oneBit mask && (source != .timer || mask = 0x01)

/-- R110: the legal combinations of an EdgeEvent's fields. -/
def EdgeEvent.legal (e : EdgeEvent) : Bool :=
  (!e.tick || e.source == .timer) && (e.source != .timer || e.level &&& 0xFE#8 == 0#8)

/-- R206: a signed 16-bit value. -/
def deltaLegal (delta : Int) : Bool := decide (-32768 ≤ delta) && decide (delta ≤ 32767)

/-- R276: a forwarded credential is not zero and is below `CRED_MOD`. -/
def WgResult.legal : WgResult → Bool
  | .nothing => true
  | .noise n => decide (1 ≤ n) && decide (n ≤ Config.wgMaxBits) && n != 4 && n != 26 && n != 34 && n != 35 && n != 36
  | .zero => true
  | .cred r => r != 0#32 && decide (r.toNat < Config.credMod)
  | .key _ => true

/-- The operands each operation may have. IRREAD's index is compared with `n_inst` when it runs. -/
def Instr.wellFormed : Instr → Bool
  | .register source _ mask _ => registerLegal source mask
  | .enq e => e.legal
  | .dispatch _ e => e.legal
  | .discard _ e => e.legal
  | .irEdge _ kind delta _ _ => kind != .tick && deltaLegal delta
  | .irFallBit _ delta _ => deltaLegal delta
  | .irRise _ delta => deltaLegal delta
  | .wgRaw msg => decide (1 ≤ msg.length) && decide (msg.length ≤ Config.wgMaxBits)
  | .wgCanon n v => decide (1 ≤ n) && decide (n ≤ Config.wgMaxBits) && decide (v < 2 ^ n)
  | .wgForward res => res.legal
  | .reset | .adv _ | .capedge _ | .pgaset _ | .wgpulse _ | .isrCapt | .isrPca | .isrWg0 | .isrWg1
  | .isrTov | .cli | .sti | .now | .drain | .irread _ | .wgpoll | .tx32 _ | .txcred _ | .txkey _
  | .drainBegin | .drainStep | .drainEnd | .stamp _ | .tickenq | .edgekind _ _ _ | .conv _ _
  | .irFallStart _ | .irFallSync _ | .irFallRepeat _ | .irFallAbort _ | .irPublish _ _
  | .wgKeymap _ | .emit _ _ | .wait _ | .tx32Bit _ | .cdBit _ | .cdWord _ | .cdFrame _ => true

end Sys2Proof
end

