-- ==== Sys2Proof/Decode.lean ====
section
/-! DEFINITION. The operation-select word (R101 to R104): its decoder, total on every word and refusing
by name, and its encoder; and the packed EdgeEvent of R110. -/

namespace Sys2Proof

/-- Why a word selects no operation (R104). -/
inductive Reject where
  /-- `op` is not in the table of R102. -/
  | unlistedOp
  /-- An operand bit that the operation does not use is not zero. -/
  | unusedOperand
  /-- REGISTER's `a[3:2]` is 1, 2 or 3. -/
  | reservedProtocol
  /-- REGISTER's mask is not one bit, or a Timer's mask is not 0x01. -/
  | reservedMask
  /-- TXKEY's character code is no key's. -/
  | reservedKey
  deriving DecidableEq, Repr

/-- R101: `op`, bits 47:40. -/
def fieldOp (w : SelectWord) : U8 := w.extractLsb' 40 8

/-- R101: `a`, bits 39:32. -/
def fieldA (w : SelectWord) : U8 := w.extractLsb' 32 8

/-- R101: `b`, bits 31:0. -/
def fieldB (w : SelectWord) : U32 := w.extractLsb' 0 32

/-- R101: the word of the three fields. -/
def joinFields (op a : U8) (b : U32) : SelectWord := op ++ a ++ b

/-- R103: the key a character code names. -/
def keyOfChar (c : U8) : Option Key :=
  if h : 0x30 ≤ c.toNat ∧ c.toNat ≤ 0x39 then some (.digit ⟨c.toNat - 0x30, by omega⟩)
  else if c = 0x2A then some .star
  else if c = 0x23 then some .hash
  else if c = 0x07 then some .bell
  else none

/-- R103: the character code of a key. -/
def charOfKey : Key → U8
  | .digit d => BitVec.ofNat 8 (0x30 + d.val)
  | .star => 0x2A
  | .hash => 0x23
  | .bell => 0x07

/-- R103: REGISTER's `a[7]`. -/
def sourceOfBit : Bool → Source
  | false => .timer
  | true => .pinGroupA

/-- R103: REGISTER's `a[7]`. -/
def bitOfSource : Source → Bool
  | .timer => false
  | .pinGroupA => true

/-- R103: REGISTER's `a[1:0]`. -/
def rateOfBits (r : BitVec 2) : ClockRate :=
  if r = 0 then .raw4us else if r = 1 then .ns4000 else if r = 2 then .ns500 else .ns125

/-- R103: REGISTER's `a[1:0]`. -/
def bitsOfRate : ClockRate → BitVec 2
  | .raw4us => 0
  | .ns4000 => 1
  | .ns500 => 2
  | .ns125 => 3

/-- R101: an operation with no operand. -/
def decodePlain (i : Instr) (a : U8) (b : U32) : Except Reject Instr :=
  if a = 0 ∧ b = 0 then .ok i else .error .unusedOperand

/-- R101: an operation that uses `b` alone. -/
def decodeB (f : U32 → Instr) (a : U8) (b : U32) : Except Reject Instr :=
  if a = 0 then .ok (f b) else .error .unusedOperand

/-- R101: an operation that uses the eight bits of `a` alone. -/
def decodeA (f : U8 → Instr) (a : U8) (b : U32) : Except Reject Instr :=
  if b = 0 then .ok (f a) else .error .unusedOperand

/-- R102: an operation that uses `a[0]` alone. -/
def decodeBit (f : Bool → Instr) (a : U8) (b : U32) : Except Reject Instr :=
  if b = 0 ∧ a.extractLsb' 1 7 = 0 then .ok (f (a.getLsbD 0)) else .error .unusedOperand

/-- R103: TXKEY. -/
def decodeKey (a : U8) (b : U32) : Except Reject Instr :=
  if b = 0 then
    match keyOfChar a with
    | some c => .ok (.txkey c)
    | none => .error .reservedKey
  else .error .unusedOperand

/-- R103, R200: REGISTER. -/
def decodeRegister (a : U8) (b : U32) : Except Reject Instr :=
  if a.extractLsb' 4 3 = 0 ∧ b.extractLsb' 8 24 = 0 then
    if a.extractLsb' 2 2 = 0 then
      if registerLegal (sourceOfBit (a.getLsbD 7)) (b.extractLsb' 0 8) then
        .ok (.register (sourceOfBit (a.getLsbD 7)) .infrared (b.extractLsb' 0 8) (rateOfBits (a.extractLsb' 0 2)))
      else .error .reservedMask
    else .error .reservedProtocol
  else .error .unusedOperand

/-- R102: the operation of an operation code and its operands. -/
def decodeFields (op : U8) (a : U8) (b : U32) : Except Reject Instr :=
  match op.toNat with
  | 0x00 => decodePlain .reset a b
  | 0x01 => decodeB .adv a b
  | 0x02 => decodeBit .capedge a b
  | 0x03 => decodeA .pgaset a b
  | 0x04 => decodeBit .wgpulse a b
  | 0x08 => decodePlain .isrCapt a b
  | 0x09 => decodePlain .isrPca a b
  | 0x0A => decodePlain .isrWg0 a b
  | 0x0B => decodePlain .isrWg1 a b
  | 0x0C => decodePlain .isrTov a b
  | 0x10 => decodePlain .cli a b
  | 0x11 => decodePlain .sti a b
  | 0x12 => decodePlain .now a b
  | 0x13 => decodePlain .drain a b
  | 0x14 => decodeA .irread a b
  | 0x15 => decodePlain .wgpoll a b
  | 0x16 => decodeB .tx32 a b
  | 0x17 => decodeB .txcred a b
  | 0x18 => decodeKey a b
  | 0x19 => decodeRegister a b
  | 0x1A => decodePlain .drainBegin a b
  | 0x1B => decodePlain .drainStep a b
  | 0x1C => decodePlain .drainEnd a b
  | _ => .error .unlistedOp

/-- R101 to R104: the operation a word selects, or why it selects none. IRREAD's index is not compared
with `n_inst` here: the operation does that when it runs. -/
def decode (w : SelectWord) : Except Reject Instr :=
  decodeFields (fieldOp w) (fieldA w) (fieldB w)

/-- R103: REGISTER's `a`. -/
def registerByte (source : Source) (rate : ClockRate) : U8 :=
  BitVec.ofBool (bitOfSource source) ++ (0 : BitVec 5) ++ bitsOfRate rate

/-- R101 to R103: the word that selects an operation; a sub-operation has none (R100). -/
def encode : Instr → Option SelectWord
  | .reset => some (joinFields 0x00 0 0)
  | .adv n => some (joinFields 0x01 0 n)
  | .capedge l => some (joinFields 0x02 ((BitVec.ofBool l).setWidth 8) 0)
  | .pgaset v => some (joinFields 0x03 v 0)
  | .wgpulse k => some (joinFields 0x04 ((BitVec.ofBool k).setWidth 8) 0)
  | .isrCapt => some (joinFields 0x08 0 0)
  | .isrPca => some (joinFields 0x09 0 0)
  | .isrWg0 => some (joinFields 0x0A 0 0)
  | .isrWg1 => some (joinFields 0x0B 0 0)
  | .isrTov => some (joinFields 0x0C 0 0)
  | .cli => some (joinFields 0x10 0 0)
  | .sti => some (joinFields 0x11 0 0)
  | .now => some (joinFields 0x12 0 0)
  | .drain => some (joinFields 0x13 0 0)
  | .irread i => some (joinFields 0x14 i 0)
  | .wgpoll => some (joinFields 0x15 0 0)
  | .tx32 v => some (joinFields 0x16 0 v)
  | .txcred v => some (joinFields 0x17 0 v)
  | .txkey c => some (joinFields 0x18 (charOfKey c) 0)
  | .register source _ mask rate => some (joinFields 0x19 (registerByte source rate) (mask.setWidth 32))
  | .drainBegin => some (joinFields 0x1A 0 0)
  | .drainStep => some (joinFields 0x1B 0 0)
  | .drainEnd => some (joinFields 0x1C 0 0)
  | .stamp _ | .enq _ | .tickenq | .dispatch _ _ | .discard _ _ | .edgekind _ _ _ | .conv _ _
  | .irEdge _ _ _ _ _ | .irFallStart _ | .irFallSync _ | .irFallRepeat _ | .irFallAbort _
  | .irFallBit _ _ _ | .irPublish _ _ | .irRise _ _ | .wgRaw _ | .wgCanon _ _ | .wgKeymap _
  | .wgForward _ | .emit _ _ | .wait _ | .tx32Bit _ | .cdBit _ | .cdWord _ | .cdFrame _ => none

/-- The operation the decoder reads from the `nbits` bits of `w`, numbered as the opcode table numbers
them: the one word of R101, bit 0 its least significant bit. -/
def decodeTableWord (nbits w : Nat) : Option Instr :=
  if nbits ≤ 48 then
    match decode (BitVec.ofNat 48 (w % 2 ^ nbits)) with
    | .ok i => some i
    | .error _ => none
  else none

/-- R110: the packed layout of an EdgeEvent, 42 bits. -/
def EdgeEvent.pack (e : EdgeEvent) : BitVec 42 :=
  BitVec.ofBool (bitOfSource e.source) ++ BitVec.ofBool e.tick ++ e.level ++ e.timestamp

/-- R110: the EdgeEvent of 42 packed bits. -/
def EdgeEvent.unpack (p : BitVec 42) : EdgeEvent where
  source    := sourceOfBit (p.getLsbD 41)
  tick      := p.getLsbD 40
  level     := p.extractLsb' 32 8
  timestamp := p.extractLsb' 0 32

end Sys2Proof
end

