-- ==== Sys2Proof/Machine/State.lean ====
section
/-! DEFINITION. The complete state of the block (R20) as plain data, the model's own fields beside it,
and its value after reset (R53, R380). -/

namespace Sys2Proof.Machine

/-- The error outcomes of rule R340, in the order of their codes 1 to 4. -/
inductive ErrorOutcome where
  | timingViolation
  | queueOverflow
  | noiseMessage
  | zeroCredential
  deriving DecidableEq, Repr

/-- The five interrupt sources of rule R341. -/
inductive IrqSource where
  | capt
  | pca
  | wg0
  | wg1
  | tov
  deriving DecidableEq, Repr

/-- `in_word` (R39). -/
inductive InWord where
  | idle
  | sawStart
  | inData
  deriving DecidableEq, Repr

/-- One PulseCaptureInstance: its configuration (R37), the fields every instance has (R38), the infrared
decode state (R39) and the infrared output slot (R40). -/
structure Instance where
  source               : Source
  protocol             : Protocol
  mask                 : U8
  clockRate            : ClockRate
  lastLevel            : U8
  lastTs               : U32
  inWord               : InWord
  bitsReceived         : Nat
  bitAccumulator       : U32
  lastMessageTimestamp : U32
  accTime              : U32
  capturedMessage      : U32
  capturedBitCount     : U8
  deriving DecidableEq, Repr

/-- The slot space of rule R70 as (address, record) pairs in one canonical form: addresses strictly rising,
no entry equal to what an unlisted address reads as (`Memory.wf`). The unit of access is one whole EdgeEvent. -/
abbrev Memory := List (Nat × EdgeEvent)

/-- One item of the output trace (R46). -/
inductive TraceItem where
  | emit (sig : Signal) (lvl : Bool)
  | wait (us : Nat)
  deriving DecidableEq, Repr

/-- One micro-step of a transmission (R300): an `Emit` or `Wait`, TX32's two writes of `int_enable` (R305),
or the record of an outcome. -/
inductive TxStep where
  | item (t : TraceItem)
  | setIntEnable (b : Bool)
  | record (o : ErrorOutcome)
  deriving DecidableEq, Repr

/-- What an operation returns (the `return` of its rule). -/
inductive Result where
  | none
  | handle (i : Nat)
  | time (t : U32)
  | acquired
  | notAcquired
  | more
  | done
  | message (m : U32) (count : U8)
  | wiegand (r : WgResult)
  | raw (v : Nat)
  | discarded (b : Bool)
  | edge (k : EdgeKind)
  | converted (units delta : Int)
  | keyOf (k : Option Key)
  deriving DecidableEq, Repr

/-- One item of the input that drives the model. `issue w` issues the operation the word selects, a composite
one with nothing interleaved (R162, R300); `start w` issues it as far as its first micro-step and leaves the
rest to `resume`, the polling context's next micro-step (R79); `configure code` is the configuration
provider's translation option (R5, R381). -/
inductive Stimulus where
  | issue (w : SelectWord)
  | start (w : SelectWord)
  | resume
  | configure (code : Int)
  deriving DecidableEq, Repr

/-- The state of the block. Up to `trace` it is the inventory of rule R20, in its order (`n_inst` is the
length of `inst`, `wg_count` that of `wgBits`; a `u1` is a `Bool`). The fields after it are the model's own. -/
structure State where
  -- parameters of the implementation (R7); no operation writes them
  cfg             : Params
  -- TimestampClock (R21 to R24)
  hardwareCounter : U16
  ovfFlag         : Bool
  overflowCount   : U16
  T               : Nat
  clockLost       : Bool
  -- interrupt controller (R26 to R28)
  intEnable       : Bool
  pendCapt        : Bool
  pendPca         : Bool
  pendWg0         : Bool
  pendWg1         : Bool
  icr             : U16
  -- inputs (R29)
  capIn           : Bool
  pgaIn           : U8
  -- EdgeCaptureQueue (R31 to R35)
  slots           : Memory
  qHead           : Nat
  qTail           : Nat
  drainLock       : Bool
  drainN          : Nat
  -- PulseCaptureInstance registry (R36 to R40)
  inst            : List Instance
  -- Wiegand decoder (R41 to R43)
  wgBits          : List Bool
  wgLastTs        : U32
  wgDiagLen       : U8
  wgDiagTs        : U32
  -- configuration (R44)
  xlateOption     : XlateOption
  -- outputs and observation (R45, R46)
  tx0             : Bool
  tx1             : Bool
  txClk           : Bool
  txData          : Bool
  trace           : List TraceItem
  -- the model's own: setup is going on (R355), the composite polling operation in progress (R356), what the
  -- last operation returned, the outcome log (R340) and the input still to come
  setup           : Bool
  wgTaken         : Option (List Bool)
  txRest          : List TxStep
  result          : Result
  outcomes        : List ErrorOutcome
  stim            : List Stimulus
  deriving DecidableEq, Repr

/-- The machine never stops with a fault: "Nothing in this core is fatal to the process" and nothing in this
block halts or traps (60_exceptions.md, 93_implementation_defined.md), so there is no constructor. Safe. -/
inductive Fault
  deriving DecidableEq, Repr

/-- Why a step has no meaning. -/
inductive Refusal where
  /-- Raised by `exec` for an operation without a meaning; no operation of this model is without one. Safe. -/
  | notModelled (mnemonic : String)
  deriving DecidableEq, Repr

/-- The machine right after reset (R53, R380): counters, indices, pending bits, lock and decoder state zero,
lines high, interrupts masked, registry empty. `icr` and the slots, which the spec leaves unspecified, are
zero (log entries 1 and 2), and no input is there yet (log entry 4). -/
def State.reset : State where
  cfg             := Params.default
  hardwareCounter := 0
  ovfFlag         := false
  overflowCount   := 0
  T               := 0
  clockLost       := false
  intEnable       := false
  pendCapt        := false
  pendPca         := false
  pendWg0         := false
  pendWg1         := false
  icr             := 0
  capIn           := true
  pgaIn           := 0xFF
  slots           := []
  qHead           := 0
  qTail           := 0
  drainLock       := false
  drainN          := 0
  inst            := []
  wgBits          := []
  wgLastTs        := 0
  wgDiagLen       := 0
  wgDiagTs        := 0
  xlateOption     := .none
  tx0             := true
  tx1             := true
  txClk           := true
  txData          := true
  trace           := []
  setup           := true
  wgTaken         := none
  txRest          := []
  result          := .none
  outcomes        := []
  stim            := []

end Sys2Proof.Machine
end

