-- ==== Sys2Proof/Machine/Ops.lean ====
section
/-! DEFINITION. The shared operations: derived parameters, the slot space, the clock and its timestamp,
taking an interrupt and returning from it, and the writes the families share. -/

namespace Sys2Proof.Machine

/-! ### Derived parameters (R7) -/

/-- `QCAP` (R7): a power of two, at least 2. -/
def qcap (p : Params) : Nat := 2 ^ (p.qcapExp + 1)

/-- `QMASK = QCAP - 1` (R7). -/
def qmask (p : Params) : Nat := qcap p - 1

/-- `TICK_NS` (R7). -/
def tickNs (p : Params) : Nat :=
  match p.tick with
  | .ns4000 => 4000
  | .ns500 => 500
  | .ns125 => 125

/-- `WG_TIMEOUT_TICKS = WG_TIMEOUT_US * 1000 / TICK_NS` (R7). -/
def wgTimeoutTicks (p : Params) : Nat := Config.wgTimeoutUs * 1000 / tickNs p

/-- The hardware ticks of `Wait(us)` (R302): `us * 1000 / TICK_NS` where that is exact, else a free value. -/
def waitTicks (p : Params) (us : Nat) : Nat :=
  if us * 1000 % tickNs p = 0 then us * 1000 / tickNs p else Config.waitTicksUnstated us (tickNs p)

/-! ### The slot space (R70, R71) -/

/-- What a slot that nothing has written reads as (log entry 2). -/
def blankEvent : EdgeEvent := { source := .timer, tick := false, level := 0, timestamp := 0 }

/-- The record at address `k`. -/
def Memory.read : Memory → Nat → EdgeEvent
  | [], _ => blankEvent
  | (a, e) :: m, k => if a = k then e else Memory.read m k

/-- Removes the entry of address `k`. -/
def Memory.erase : Memory → Nat → Memory
  | [], _ => []
  | (a, e) :: m, k => if a = k then m else (a, e) :: Memory.erase m k

/-- Puts the entry `(k, e)` in its place. -/
def Memory.insert : Memory → Nat → EdgeEvent → Memory
  | [], k, e => [(k, e)]
  | (a, f) :: m, k, e =>
    if k < a then (k, e) :: (a, f) :: m
    else if a = k then (k, e) :: m
    else (a, f) :: Memory.insert m k e

/-- Replaces the record at address `k` by `e`, keeping the canonical form. -/
def Memory.write (m : Memory) (k : Nat) (e : EdgeEvent) : Memory :=
  if e = blankEvent then Memory.erase m k else Memory.insert m k e

/-- The canonical form: addresses strictly rising, no entry equal to what an unlisted address reads as. -/
abbrev Memory.wf (m : Memory) : Prop :=
  (m.map Prod.fst).Pairwise (· < ·) ∧ ∀ c ∈ m, c.2 ≠ blankEvent

/-- `Q.head` as an index: only its `log2 QCAP` bits exist (R32, R71). -/
def headIdx (s : State) : Nat := s.qHead &&& qmask s.cfg

/-- `Q.tail` as an index (R32, R71). -/
def tailIdx (s : State) : Nat := s.qTail &&& qmask s.cfg

/-- `(k + 1) & QMASK`, the only index arithmetic (R76). -/
def nextIdx (p : Params) (k : Nat) : Nat := (k + 1) &&& qmask p

/-- `QRead(k)` (R71). -/
def qRead (k : Nat) (s : State) : EdgeEvent := s.slots.read k

/-- `QWrite(k, e)` (R71). -/
def qWrite (k : Nat) (e : EdgeEvent) (s : State) : State := { s with slots := s.slots.write k e }

/-! ### Writes the families share -/

/-- `outcome <Name>` (R10, R340): the log, which no rule reads. -/
def recordAll (os : List ErrorOutcome) (s : State) : State := { s with outcomes := s.outcomes ++ os }

/-- `return` of an operation. -/
def give (r : Result) (s : State) : State := { s with result := r }

/-- A write of `int_enable` (R26). -/
def setIntEnable (b : Bool) (s : State) : State := { s with intEnable := b }

/-- Applies `f` to `inst[i]` and records the outcomes; nothing where `i` is not below `n_inst`. -/
def onInst (i : Nat) (f : Instance → Instance × List ErrorOutcome) (s : State) : State :=
  match s.inst[i]? with
  | none => s
  | some I => { s with inst := s.inst.set i (f I).1, outcomes := s.outcomes ++ (f I).2 }

/-! ### The clock (R150) and its timestamp (R152) -/

/-- `ADV n` (R150) in closed form, so that any `n` evaluates at once: the counter wraps
`(hardware_counter + n) / 65536` times. -/
def adv (n : Nat) (s : State) : State :=
  let wraps := (s.hardwareCounter.toNat + n) / 65536
  { s with T := s.T + n,
           hardwareCounter := BitVec.ofNat 16 (s.hardwareCounter.toNat + n),
           clockLost := s.clockLost || (decide (1 ≤ wraps) && s.ovfFlag) || decide (2 ≤ wraps),
           ovfFlag := s.ovfFlag || decide (1 ≤ wraps) }

/-- The two halves of a timestamp (R25, R74): `hi * 65536 + lo`. -/
def joinHalves (hi lo : U16) : U32 := hi ++ lo

/-- `STAMP(c)` (R152). -/
def stamp (c : U16) (s : State) : U32 :=
  joinHalves (if s.ovfFlag && decide (c.toNat < 0x8000) then s.overflowCount + 1 else s.overflowCount) c

/-! ### Taking an interrupt and returning from it (R345, R346) -/

/-- Interrupt entry (R345): `int_enable` goes to 0 and the service's first action clears its pending bit;
TOV's flag is cleared later, in the service. Nothing else is saved or changed. -/
def irqEnter (src : IrqSource) (s : State) : State :=
  match src with
  | .capt => { s with intEnable := false, pendCapt := false }
  | .pca => { s with intEnable := false, pendPca := false }
  | .wg0 => { s with intEnable := false, pendWg0 := false }
  | .wg1 => { s with intEnable := false, pendWg1 := false }
  | .tov => { s with intEnable := false }

/-- Interrupt exit (R346): `int_enable` goes to 1. -/
def irqExit (s : State) : State := setIntEnable true s

end Sys2Proof.Machine
end

