-- ==== Sys2Proof/Machine/Operands.lean ====
section
/-! DEFINITION. What the operations compute from their operands: the delta and its conversion (R205,
R206), the edge kind (R204), the key codes (R131, R318), the raw value of a bit sequence (R275). -/

namespace Sys2Proof.Machine

/-- `clamp(lo, hi, v)` (R9). -/
def clamp (lo hi v : Int) : Int := max lo (min hi v)

/-- The tick conversion of R206: the raw and the two divided rates read the delta as signed, the 125 ns
rate as unsigned ("unsigned-wrap correction"). -/
def convUnits (rate : ClockRate) (d : U32) : Int :=
  match rate with
  | .raw4us => d.toInt
  | .ns4000 => 4 * d.toInt
  | .ns500 => d.toInt / 2
  | .ns125 => ((d >>> 3).toNat : Int)

/-- The clamp of R206 to a signed 16-bit range. -/
def convDelta (units : Int) : Int := clamp (-32768) 32767 units

/-- `EDGEKIND(old, new, tick)` (R204); a free value where the rule states no kind. -/
def edgeKind (old new : U8) (tick : Bool) : EdgeKind :=
  if tick then .tick
  else if new ≠ 0 ∧ old = 0 then .rise
  else if new = 0 ∧ old ≠ 0 then .fall
  else Config.edgeKindUnstated old new

/-- `I.acc_time <- min(0xFFFFFFFF, I.acc_time + max(0, units))` (R230). -/
def accumulate (acc : U32) (units : Int) : U32 :=
  BitVec.ofNat 32 (min 0xFFFFFFFF (acc.toNat + (max 0 units).toNat))

/-- `WG_RAW(msg)` (R275): the first bit received is the most significant. -/
def wgRaw (msg : List Bool) : Nat := msg.foldl (fun v b => 2 * v + b.toNat) 0

/-- `WG_KEYMAP(code)` (R277). -/
def wgKeymap (code : U4) : Option Key :=
  if h : code.toNat < 10 then some (.digit ⟨code.toNat, h⟩)
  else if code = 10 then some .star
  else if code = 11 then some .hash
  else none

/-- The code of a key (R131, R318). -/
def keyCode : Key → Nat
  | .digit d => if d.val = 0 then 9 else d.val - 1
  | .star => 10
  | .hash => 11
  | .bell => 15

/-- Decimal digit `j` of a credential (R315). -/
def decDigit (r j : Nat) : U4 := BitVec.ofNat 4 (r / 10 ^ j % 10)

/-- `CD_START`, `CD_SEP`, `CD_END` (R7, R129, R130). -/
def sentinelWord (p : Params) : Sentinel → U4
  | .start => p.cdStart
  | .sep => p.cdSep
  | .stop => p.cdEnd

/-- The place of `slot2` in the keypress frame. -/
def slot2At (L : KeyLayout) : Nat := (L.slot1.val + L.slot2Gap.val + 1) % 6

/-- Word `j` of the keypress frame. -/
def keyWord (p : Params) (slot1 slot2 : U4) (j : Fin 6) : U4 :=
  if j = p.keyLayout.slot1 then slot1
  else if j.val = slot2At p.keyLayout then slot2
  else sentinelWord p (p.keyLayout.fill.get j)

/-- `KEYFRAME(slot1, slot2)` (R130, R318): six words. -/
def keyFrame (p : Params) (slot1 slot2 : U4) : List U4 :=
  [keyWord p slot1 slot2 0, keyWord p slot1 slot2 1, keyWord p slot1 slot2 2,
   keyWord p slot1 slot2 3, keyWord p slot1 slot2 4, keyWord p slot1 slot2 5]

/-- The ten words of the credential frame (R129, R315). -/
def credFrame (p : Params) (r : Nat) : List U4 :=
  [p.cdStart, decDigit r 7, decDigit r 6, decDigit r 5, decDigit r 4,
   decDigit r 3, decDigit r 2, decDigit r 1, decDigit r 0, p.cdEnd]

end Sys2Proof.Machine
end

