-- ==== Sys2Proof/Machine/Flags.lean ====
section
/-! DEFINITION. The one-bit conditions: the derived predicates of the queue (R33), the change mask of pin
group A (R7, R166), and when each operation is enabled (R352 to R356). -/

namespace Sys2Proof.Machine

/-- `Q.count` (R33). -/
def qCount (s : State) : Nat := (headIdx s + qcap s.cfg - tailIdx s) % qcap s.cfg

/-- `Q.empty` (R33). -/
def qEmpty (s : State) : Bool := headIdx s == tailIdx s

/-- `Q.full` (R33). -/
def qFull (s : State) : Bool := nextIdx s.cfg (headIdx s) == tailIdx s

/-- The message-pending flag (R50). -/
def messagePending (I : Instance) : Bool := I.capturedBitCount != 0

/-- `PGA_IRQ_MASK` (R7): the union of the masks of the instances bound to pin group A. -/
def pgaIrqMask (s : State) : U8 :=
  s.inst.foldl (fun m I => if I.source == .pinGroupA then m ||| I.mask else m) 0

/-- The pending bit of a source (R27, R341). -/
def irqPending (src : IrqSource) (s : State) : Bool :=
  match src with
  | .capt => s.pendCapt
  | .pca => s.pendPca
  | .wg0 => s.pendWg0
  | .wg1 => s.pendWg1
  | .tov => s.ovfFlag

/-- The sources above a source in the priority table of R341. -/
def irqAbove : IrqSource → List IrqSource
  | .capt => []
  | .pca => [.capt]
  | .wg0 => [.capt, .pca]
  | .wg1 => [.capt, .pca, .wg0]
  | .tov => [.capt, .pca, .wg0, .wg1]

/-- Enablement of an interrupt service (R352). -/
def irqEnabled (src : IrqSource) (s : State) : Bool :=
  s.intEnable && irqPending src s && (irqAbove src).all (fun above => !irqPending above s)

/-- No WGPOLL and no transmission is between its micro-steps (R356). -/
def txFree (s : State) : Bool := s.wgTaken.isNone && s.txRest.isEmpty

/-- The polling context is between operations: outside a drain and outside a transmission (R353, R356). -/
def pollFree (s : State) : Bool := !s.drainLock && txFree s

/-- Enablement of DRAIN_STEP and DRAIN_END (R353). -/
def inDrain (s : State) : Bool := s.drainLock && txFree s

/-- Enablement of REGISTER (R200, R355). -/
def registerEnabled (s : State) : Bool :=
  s.setup && !s.intEnable && decide (s.inst.length < s.cfg.nInst) && pollFree s

/-- One interrupt service as one step (R79, R346): entry, the service's body, exit, where the source is
enabled; nothing otherwise (R105). -/
def service (src : IrqSource) (body : State → State) (s : State) : State :=
  if irqEnabled src s then irqExit (body (irqEnter src s)) else s

/-- A polling operation: its effect where it is enabled, nothing otherwise (R105). -/
def whenever (enabled : Bool) (effect : State → State) (s : State) : State :=
  if enabled then effect s else s

end Sys2Proof.Machine
end

