-- ==== Sys2Proof/Machine/Clock.lean ====
section
/-! DEFINITION. The operations of the environment on the clock and the inputs, STAMP, NOW and the critical
section (40_clock_queue.md sections 1, 2 and 6), and RESET (R380). -/

namespace Sys2Proof.Machine

/-- CAPEDGE (R151): an edge of the capture pin latches the counter. -/
def capEdge (l : Bool) (s : State) : State :=
  if l ≠ s.capIn then { s with capIn := l, icr := s.hardwareCounter, pendCapt := true } else s

/-- PGASET (R166). -/
def pgaSet (v : U8) (s : State) : State :=
  { s with pgaIn := v, pendPca := s.pendPca || ((s.pgaIn ^^^ v) &&& pgaIrqMask s) != 0 }

/-- RESET (R380): every field of R20 goes to its reset value. The translation option is the collaborator's and
stays; so do the parameters and the input still to come, which are no state of the block. -/
def resetBlock (s : State) : State :=
  { State.reset with cfg := s.cfg, xlateOption := s.xlateOption, stim := s.stim }

/-! ### The operations -/

/-- RESET (R380), enabled at any time. -/
def execReset (s : State) : Host.Outcome State Fault Refusal := .next (resetBlock s)

/-- ADV (R150). -/
def execAdv (n : U32) (s : State) : Host.Outcome State Fault Refusal := .next (adv n.toNat s)

/-- CAPEDGE (R151). -/
def execCapedge (l : Bool) (s : State) : Host.Outcome State Fault Refusal := .next (capEdge l s)

/-- PGASET (R166). -/
def execPgaset (v : U8) (s : State) : Host.Outcome State Fault Refusal := .next (pgaSet v s)

/-- STAMP (R152). -/
def execStamp (c : U16) (s : State) : Host.Outcome State Fault Refusal := .next (give (.time (stamp c s)) s)

/-- NOW (R163). -/
def execNow (s : State) : Host.Outcome State Fault Refusal :=
  .next (whenever (pollFree s) (give (.time (stamp s.hardwareCounter s))) s)

/-- CLI (R164). -/
def execCli (s : State) : Host.Outcome State Fault Refusal :=
  .next (whenever (pollFree s) (setIntEnable false) s)

/-- STI (R165); the first one ends setup (R355, R381). -/
def execSti (s : State) : Host.Outcome State Fault Refusal :=
  .next (whenever (pollFree s) (fun t => { setIntEnable true t with setup := false }) s)

end Sys2Proof.Machine
end

