-- ==== Sys2Proof/Machine/Infrared.lean ====
section
/-! DEFINITION. The infrared decoder (42_infrared.md): the edge handler and its arms as functions of one
instance, and the operations that perform them on `inst[i]`. -/

namespace Sys2Proof.Machine

/-- IR_FALL_START (R231). -/
def irFallStart (I : Instance) : Instance × List ErrorOutcome :=
  ({ I with inWord := .sawStart, bitsReceived := 0, bitAccumulator := 0 }, [])

/-- IR_FALL_SYNC (R232). -/
def irFallSync (I : Instance) : Instance × List ErrorOutcome :=
  ({ I with inWord := .inData }, [])

/-- IR_FALL_REPEAT (R233). -/
def irFallRepeat (I : Instance) : Instance × List ErrorOutcome :=
  if I.accTime.toNat < Config.irRepeatWindow then
    ({ I with capturedMessage := 1, capturedBitCount := 1, inWord := .idle,
              accTime := if Config.irRepeatRefresh then 0 else I.accTime }, [])
  else ({ I with inWord := .idle }, [])

/-- IR_FALL_ABORT (R234). -/
def irFallAbort (I : Instance) : Instance × List ErrorOutcome :=
  ({ I with inWord := .idle }, [.timingViolation])

/-- IR_PUBLISH (R236). -/
def irPublish (ts : U32) (I : Instance) : Instance × List ErrorOutcome :=
  ({ I with capturedMessage := I.bitAccumulator, capturedBitCount := 32, lastMessageTimestamp := ts,
            accTime := 0, inWord := .idle }, [])

/-- The bit a valid data gap carries, shifted in (the first two assignments of R235). -/
def irShiftIn (delta : Int) (I : Instance) : Instance :=
  { I with
    bitAccumulator := I.bitAccumulator |||
      ((if Config.irBitThreshold < delta then 1#32 else 0#32) <<< I.bitsReceived)
    bitsReceived := I.bitsReceived + 1 }

/-- IR_FALL_BIT (R235). -/
def irFallBit (delta : Int) (ts : U32) (I : Instance) : Instance × List ErrorOutcome :=
  if (irShiftIn delta I).bitsReceived = 32 then irPublish ts (irShiftIn delta I) else (irShiftIn delta I, [])

/-- IR_RISE (R237). -/
def irRise (delta : Int) (I : Instance) : Instance × List ErrorOutcome :=
  if I.inWord ≠ .idle ∧ Config.irMarkAbort < delta then irFallAbort I
  else if I.inWord = .inData ∧ (delta < Config.irMarkMin ∨ Config.irMarkMax < delta) then irFallAbort I
  else (I, [])

/-- The falling-edge decision of R230. -/
def irFall (delta : Int) (ts : U32) (I : Instance) : Instance × List ErrorOutcome :=
  if I.inWord = .idle ∨ Config.irRestartGap ≤ delta then irFallStart I
  else if I.inWord = .sawStart then
    if Config.irSyncMin ≤ delta ∧ delta ≤ Config.irSyncMax then irFallSync I
    else if Config.irRepeatMin ≤ delta ∧ delta ≤ Config.irRepeatMax then irFallRepeat I
    else irFallAbort I
  else if delta < Config.irBitMin ∨ Config.irBitMax < delta
      ∨ (Config.irDeadMin ≤ delta ∧ delta ≤ Config.irDeadMax) then irFallAbort I
  else irFallBit delta ts I

/-- IR_EDGE (R230): the accumulation of `acc_time`, then the arm of the edge. -/
def irEdge (kind : EdgeKind) (delta units : Int) (ts : U32) (I : Instance) : Instance × List ErrorOutcome :=
  match kind with
  | .fall => irFall delta ts { I with accTime := accumulate I.accTime units }
  | .rise => irRise delta { I with accTime := accumulate I.accTime units }
  | .tick => ({ I with accTime := accumulate I.accTime units }, [])

/-- `read()` of one instance (R240): what it returns and what it leaves. -/
def irReadInst (I : Instance) : Result × Instance :=
  if messagePending I then
    (.message I.capturedMessage I.capturedBitCount, { I with capturedMessage := 0, capturedBitCount := 0 })
  else (.message 0 0, I)

/-- `read()` of `inst[i]` (R240); an index that is not below `n_inst` selects no operation (R104). -/
def irReadAt (i : Nat) (s : State) : State :=
  match s.inst[i]? with
  | none => s
  | some I => give (irReadInst I).1 { s with inst := s.inst.set i (irReadInst I).2 }

/-! ### The operations -/

/-- IR_EDGE on `inst[i]`. -/
def execIrEdge (i : Nat) (kind : EdgeKind) (delta units : Int) (ts : U32) (s : State) :
    Host.Outcome State Fault Refusal :=
  .next (onInst i (irEdge kind delta units ts) s)

/-- IR_FALL_START on `inst[i]`. -/
def execIrFallStart (i : Nat) (s : State) : Host.Outcome State Fault Refusal :=
  .next (onInst i irFallStart s)

/-- IR_FALL_SYNC on `inst[i]`. -/
def execIrFallSync (i : Nat) (s : State) : Host.Outcome State Fault Refusal :=
  .next (onInst i irFallSync s)

/-- IR_FALL_REPEAT on `inst[i]`. -/
def execIrFallRepeat (i : Nat) (s : State) : Host.Outcome State Fault Refusal :=
  .next (onInst i irFallRepeat s)

/-- IR_FALL_ABORT on `inst[i]`. -/
def execIrFallAbort (i : Nat) (s : State) : Host.Outcome State Fault Refusal :=
  .next (onInst i irFallAbort s)

/-- IR_FALL_BIT on `inst[i]`. -/
def execIrFallBit (i : Nat) (delta : Int) (ts : U32) (s : State) : Host.Outcome State Fault Refusal :=
  .next (onInst i (irFallBit delta ts) s)

/-- IR_PUBLISH on `inst[i]`. -/
def execIrPublish (i : Nat) (ts : U32) (s : State) : Host.Outcome State Fault Refusal :=
  .next (onInst i (irPublish ts) s)

/-- IR_RISE on `inst[i]`. -/
def execIrRise (i : Nat) (delta : Int) (s : State) : Host.Outcome State Fault Refusal :=
  .next (onInst i (irRise delta) s)

/-- IRREAD (R240), enabled between polling operations (R353, R356). -/
def execIrread (i : U8) (s : State) : Host.Outcome State Fault Refusal :=
  .next (whenever (pollFree s) (irReadAt i.toNat) s)

end Sys2Proof.Machine
end

