-- ==== Sys2Proof/Machine/Registry.lean ====
section
/-! DEFINITION. The registry and dispatch (41_dispatch.md). -/

namespace Sys2Proof.Machine

/-- A new instance (R200, R53). -/
def newInstance (source : Source) (protocol : Protocol) (mask : U8) (rate : ClockRate) : Instance where
  source               := source
  protocol             := protocol
  mask                 := mask
  clockRate            := rate
  lastLevel            := mask
  lastTs               := 0
  inWord               := .idle
  bitsReceived         := 0
  bitAccumulator       := 0
  lastMessageTimestamp := 0
  accTime              := 0xFFFFFFFF
  capturedMessage      := 0
  capturedBitCount     := 0

/-- The pseudocode of REGISTER (R200). -/
def registerInst (I : Instance) (s : State) : State :=
  give (.handle s.inst.length) { s with inst := s.inst ++ [I] }

/-- DISCARD(I, e) (R203): the four conditions in the order tested. -/
def discard (e : EdgeEvent) (I : Instance) : Bool :=
  (e.tick && I.inWord == .idle)
  || (e.tick && I.protocol == .infrared)
  || (!e.tick && e.source != I.source)
  || (!e.tick && e.source == I.source && (e.level &&& I.mask) == I.lastLevel)

/-- HANDLER(protocol) (R208). -/
def handler (protocol : Protocol) (kind : EdgeKind) (delta units : Int) (ts : U32) (I : Instance) :
    Instance × List ErrorOutcome :=
  match protocol with
  | .infrared => irEdge kind delta units ts I

/-- The part of DISPATCH after the discard test (R201): the instance records the event (R207), then its
handler runs. -/
def handle (e : EdgeEvent) (I : Instance) : Instance × List ErrorOutcome :=
  let units := convUnits I.clockRate (e.timestamp - I.lastTs)
  handler I.protocol (edgeKind I.lastLevel (e.level &&& I.mask) e.tick) (convDelta units) units e.timestamp
    { I with lastLevel := e.level &&& I.mask, lastTs := e.timestamp }

/-- DISPATCH of an event to one instance (R201). -/
def dispatchInst (e : EdgeEvent) (I : Instance) : Instance × List ErrorOutcome :=
  if discard e I then (I, []) else handle e I

/-- DISPATCH(i, e) (R201). -/
def dispatch (i : Nat) (e : EdgeEvent) (s : State) : State := onInst i (dispatchInst e) s

/-- The dispatch loop of R160: the event is offered to `inst[0]`, `inst[1]`, … in this order. -/
def dispatchAll (e : EdgeEvent) (s : State) : State :=
  (List.range s.inst.length).foldl (fun t i => dispatch i e t) s

/-! ### The operations -/

/-- REGISTER (R200). An operand that R200 does not allow selects no operation (R104). -/
def execRegister (source : Source) (protocol : Protocol) (mask : U8) (rate : ClockRate) (s : State) :
    Host.Outcome State Fault Refusal :=
  .next (whenever (registerEnabled s && registerLegal source mask)
    (registerInst (newInstance source protocol mask rate)) s)

/-- DISPATCH (R201). -/
def execDispatch (i : Nat) (e : EdgeEvent) (s : State) : Host.Outcome State Fault Refusal :=
  .next (dispatch i e s)

/-- DISCARD (R203): returns whether `inst[i]` discards the event. -/
def execDiscard (i : Nat) (e : EdgeEvent) (s : State) : Host.Outcome State Fault Refusal :=
  .next (match s.inst[i]? with
    | none => s
    | some I => give (.discarded (discard e I)) s)

/-- EDGEKIND (R204). -/
def execEdgekind (old new : U8) (tick : Bool) (s : State) : Host.Outcome State Fault Refusal :=
  .next (give (.edge (edgeKind old new tick)) s)

/-- CONV (R206): returns `(units, delta)`. -/
def execConv (rate : ClockRate) (d : U32) (s : State) : Host.Outcome State Fault Refusal :=
  .next (give (.converted (convUnits rate d) (convDelta (convUnits rate d))) s)

end Sys2Proof.Machine
end

