-- ==== Sys2Proof/Machine/Queue.lean ====
section
/-! DEFINITION. The EdgeCaptureQueue: enqueue, the interrupt services that feed it, and the drain
(40_clock_queue.md sections 3 to 5). -/

namespace Sys2Proof.Machine

/-- ENQ(e) (R154). -/
def enq (e : EdgeEvent) (s : State) : State :=
  if qFull s then recordAll [.queueOverflow] s
  else { qWrite (headIdx s) e s with qHead := nextIdx s.cfg (headIdx s) }

/-- The level of the capture pin as `level_bits` (R30): `zext_8(CAP_IN)`. -/
def capLevel (s : State) : U8 := (BitVec.ofBool s.capIn).setWidth 8

/-- The Tick event of R167. -/
def tickEvent (s : State) : EdgeEvent :=
  { source := .timer, tick := true, level := capLevel s, timestamp := joinHalves s.overflowCount s.hardwareCounter }

/-- TICKENQ (R167). -/
def tickEnq (s : State) : State := if qEmpty s then enq (tickEvent s) s else s

/-- The event of ISR_CAPT (R156): the level at service, the time of the latch. -/
def captEvent (s : State) : EdgeEvent :=
  { source := .timer, tick := false, level := capLevel s, timestamp := stamp s.icr s }

/-- The event of ISR_PCA (R157): levels and time of the service. -/
def pcaEvent (s : State) : EdgeEvent :=
  { source := .pinGroupA, tick := false, level := s.pgaIn, timestamp := stamp s.hardwareCounter s }

/-- The body of ISR_TOV (R155). -/
def tovBody (s : State) : State :=
  tickEnq { s with overflowCount := s.overflowCount + 1, ovfFlag := false }

/-- DRAIN_BEGIN (R158, R159): whether the lock was acquired. -/
def drainBegin (s : State) : State × Bool :=
  if s.drainLock then (s, false)
  else ({ s with drainLock := true, drainN := 0, intEnable := true }, true)

/-- DRAIN_STEP (R160): whether there was an event to dispatch. -/
def drainStep (s : State) : State × Bool :=
  if s.drainN = s.cfg.drainMax ∨ qEmpty s then (s, false)
  else (dispatchAll (qRead (tailIdx s) s)
         { s with qTail := nextIdx s.cfg (tailIdx s), drainN := s.drainN + 1 }, true)

/-- DRAIN_END (R161). -/
def drainEnd (s : State) : State := { s with drainLock := false }

/-- `while DRAIN_STEP = More` (R162); `DRAIN_MAX` steps are always enough. -/
def drainLoop : Nat → State → State
  | 0, s => s
  | n + 1, s => if (drainStep s).2 then drainLoop n (drainStep s).1 else (drainStep s).1

/-- DRAIN (R162). -/
def drain (s : State) : State :=
  if (drainBegin s).2 then drainEnd (drainLoop s.cfg.drainMax (drainBegin s).1) else (drainBegin s).1

/-! ### The operations -/

/-- ENQ (R154). -/
def execEnq (e : EdgeEvent) (s : State) : Host.Outcome State Fault Refusal := .next (enq e s)

/-- TICKENQ (R167). -/
def execTickenq (s : State) : Host.Outcome State Fault Refusal := .next (tickEnq s)

/-- ISR_TOV (R155). -/
def execIsrTov (s : State) : Host.Outcome State Fault Refusal := .next (service .tov tovBody s)

/-- ISR_CAPT (R156). -/
def execIsrCapt (s : State) : Host.Outcome State Fault Refusal :=
  .next (service .capt (fun t => enq (captEvent t) t) s)

/-- ISR_PCA (R157). -/
def execIsrPca (s : State) : Host.Outcome State Fault Refusal :=
  .next (service .pca (fun t => enq (pcaEvent t) t) s)

/-- DRAIN_BEGIN (R158); inside a drain it is answered by the nested-return rule (R159). -/
def execDrainBegin (s : State) : Host.Outcome State Fault Refusal :=
  .next (whenever (txFree s)
    (fun t => give (if (drainBegin t).2 then .acquired else .notAcquired) (drainBegin t).1) s)

/-- DRAIN_STEP (R160). -/
def execDrainStep (s : State) : Host.Outcome State Fault Refusal :=
  .next (whenever (inDrain s) (fun t => give (if (drainStep t).2 then .more else .done) (drainStep t).1) s)

/-- DRAIN_END (R161). -/
def execDrainEnd (s : State) : Host.Outcome State Fault Refusal :=
  .next (whenever (inDrain s) drainEnd s)

/-- DRAIN (R162). -/
def execDrain (s : State) : Host.Outcome State Fault Refusal := .next (whenever (txFree s) drain s)

end Sys2Proof.Machine
end

