-- ==== Sys2Proof/Machine/Output.lean ====
section
/-! DEFINITION. The output encoders (44_output_encoders.md). A transmission is a list of micro-steps fixed
by its argument and the parameters (R300). -/

namespace Sys2Proof.Machine

/-- Drives one output line (R301). -/
def setLine (sig : Signal) (lvl : Bool) (s : State) : State :=
  match sig with
  | .tx0 => { s with tx0 := lvl }
  | .tx1 => { s with tx1 := lvl }
  | .txClk => { s with txClk := lvl }
  | .txData => { s with txData := lvl }

/-- Emit(sig, lvl) (R301). -/
def emit (sig : Signal) (lvl : Bool) (s : State) : State :=
  { setLine sig lvl s with trace := s.trace ++ [.emit sig lvl] }

/-- Wait(us) (R302). -/
def wait (us : Nat) (s : State) : State :=
  adv (waitTicks s.cfg us) { s with trace := s.trace ++ [.wait us] }

/-- One micro-step of a transmission (R300). -/
def txStep (t : TxStep) (s : State) : State :=
  match t with
  | .item (.emit sig lvl) => emit sig lvl s
  | .item (.wait us) => wait us s
  | .setIntEnable b => setIntEnable b s
  | .record o => recordAll [o] s

/-- The micro-steps in order, with nothing interleaved. -/
def txRun (ts : List TxStep) (s : State) : State := ts.foldl (fun t m => txStep m t) s

/-- TX32_BIT(b) (R306): a 1 pulses TX1, a 0 pulses TX0. -/
def tx32BitItems (b : Bool) : List TraceItem :=
  [.emit (if b then .tx1 else .tx0) false, .wait Config.tx32LowUs,
   .emit (if b then .tx1 else .tx0) true, .wait Config.tx32HighUs]

/-- The 32 bits of TX32, bit 31 first (R305). -/
def tx32Items (v : U32) : List TraceItem :=
  (List.range 32).flatMap (fun j => tx32BitItems (v.getLsbD (31 - j)))

/-- CD_BIT(b) (R310): with `CD_DATA_ACTIVE_LOW` a 1 bit is data low. -/
def cdBitItems (b : Bool) : List TraceItem :=
  [.emit .txData (if Config.cdDataActiveLow then !b else b),
   .emit .txClk false, .wait Config.cdHalfUs, .emit .txClk true, .wait Config.cdHalfUs]

/-- The five bits of a word in the order sent (R127, R311): bit 0 first, then the odd parity bit. -/
def cdWordBits (w : U4) : List Bool :=
  [w.getLsbD 0, w.getLsbD 1, w.getLsbD 2, w.getLsbD 3,
   true ^^ w.getLsbD 0 ^^ w.getLsbD 1 ^^ w.getLsbD 2 ^^ w.getLsbD 3]

/-- CD_WORD(w) (R311). -/
def cdWordItems (w : U4) : List TraceItem := (cdWordBits w).flatMap cdBitItems

/-- The message parity word (R128, R312): the exclusive-or of the words. -/
def cdLrc (words : List U4) : U4 := words.foldl (fun l w => l ^^^ w) 0

/-- CD_FRAME(words) (R312). -/
def cdFrameItems (words : List U4) : List TraceItem :=
  (List.replicate Config.cdPreamble false).flatMap cdBitItems
  ++ words.flatMap cdWordItems
  ++ cdWordItems (cdLrc words)
  ++ (List.replicate Config.cdEpilogue false).flatMap cdBitItems

/-- TX32 v (R305). -/
def tx32Steps (v : U32) : List TxStep :=
  if v = 0 then [.record .zeroCredential]
  else .setIntEnable false :: (tx32Items v).map .item ++ [.setIntEnable true]

/-- TXCRED v (R315). -/
def txCredSteps (p : Params) (v : U32) : List TxStep :=
  if v.toNat % Config.credMod = 0 then [.record .zeroCredential]
  else (cdFrameItems (credFrame p (v.toNat % Config.credMod))).map .item

/-- The words of TXKEY c (R318): `slot1 = floor(code / 10)`, `slot2 = code mod 10`. -/
def keyWords (p : Params) (c : Key) : List U4 :=
  keyFrame p (BitVec.ofNat 4 (keyCode c / 10)) (BitVec.ofNat 4 (keyCode c % 10))

/-- TXKEY c (R318). -/
def txKeySteps (p : Params) (c : Key) : List TxStep := (cdFrameItems (keyWords p c)).map .item

/-! ### The operations -/

/-- Emit (R301). -/
def execEmit (sig : Signal) (lvl : Bool) (s : State) : Host.Outcome State Fault Refusal := .next (emit sig lvl s)

/-- Wait (R302). -/
def execWait (us : Nat) (s : State) : Host.Outcome State Fault Refusal := .next (wait us s)

/-- TX32_BIT (R306). -/
def execTx32Bit (b : Bool) (s : State) : Host.Outcome State Fault Refusal :=
  .next (txRun ((tx32BitItems b).map .item) s)

/-- CD_BIT (R310). -/
def execCdBit (b : Bool) (s : State) : Host.Outcome State Fault Refusal :=
  .next (txRun ((cdBitItems b).map .item) s)

/-- CD_WORD (R311). -/
def execCdWord (w : U4) (s : State) : Host.Outcome State Fault Refusal :=
  .next (txRun ((cdWordItems w).map .item) s)

/-- CD_FRAME (R312). -/
def execCdFrame (words : List U4) (s : State) : Host.Outcome State Fault Refusal :=
  .next (txRun ((cdFrameItems words).map .item) s)

/-- TX32 (R305), issued as one word: nothing interleaved (R300). -/
def execTx32 (v : U32) (s : State) : Host.Outcome State Fault Refusal :=
  .next (whenever (pollFree s) (txRun (tx32Steps v)) s)

/-- TXCRED (R315). -/
def execTxcred (v : U32) (s : State) : Host.Outcome State Fault Refusal :=
  .next (whenever (pollFree s) (txRun (txCredSteps s.cfg v)) s)

/-- TXKEY (R318). -/
def execTxkey (c : Key) (s : State) : Host.Outcome State Fault Refusal :=
  .next (whenever (pollFree s) (txRun (txKeySteps s.cfg c)) s)

end Sys2Proof.Machine
end

