-- ==== Sys2Proof/Machine/Wiegand.lean ====
section
/-! DEFINITION. The Wiegand decoder (43_wiegand.md). -/

namespace Sys2Proof.Machine

/-- WGPULSE k (R270). -/
def wgPulse (k : Bool) (s : State) : State :=
  if k then { s with pendWg1 := true } else { s with pendWg0 := true }

/-- The body of ISR_WG0 and ISR_WG1 (R271, R272): a 71st bit is not stored but restarts the timeout. -/
def wgBody (bit : Bool) (s : State) : State :=
  { s with wgBits := if s.wgBits.length < Config.wgMaxBits then s.wgBits ++ [bit] else s.wgBits,
           wgLastTs := stamp s.hardwareCounter s }

/-- The test of the take (R273): a bit has come and the timeout has passed, modulo 2^32. -/
def wgComplete (s : State) : Bool :=
  decide (1 ≤ s.wgBits.length)
  && decide (wgTimeoutTicks s.cfg ≤ (stamp s.hardwareCounter s - s.wgLastTs).toNat)

/-- The take of WGPOLL (R273), one atomic step; `int_enable` is 1 after it. -/
def wgTake (s : State) : State × Option (List Bool) :=
  if wgComplete s then
    ({ s with wgBits := [], wgDiagLen := BitVec.ofNat 8 s.wgBits.length, wgDiagTs := s.wgLastTs,
              intEnable := true }, some s.wgBits)
  else ({ s with intEnable := true }, none)

/-- R276: the masked and shifted value of a recognised credential length. -/
def wgMasked (n v : Nat) : Option Nat :=
  match n with
  | 26 => some ((v &&& 0x1FFFFFF) >>> 1)
  | 34 => some ((v &&& 0x1FFFFFFFF) >>> 1)
  | 35 => some ((v &&& 0x1FFFFF) >>> 1)
  | 36 => some ((v &&& 0x1FFFFFFFF) >>> 1)
  | _ => none

/-- R276: the reduction modulo `CRED_MOD` and the zero test. -/
def wgReduce (x : Nat) : WgResult :=
  if x % Config.credMod = 0 then .zero else .cred (BitVec.ofNat 32 (x % Config.credMod))

/-- WG_CANON(n, v) (R276). -/
def wgCanon (n v : Nat) : WgResult :=
  if n = 4 then .key (BitVec.ofNat 4 v)
  else match wgMasked n v with
    | some x => wgReduce x
    | none => .noise n

/-- The outcome WG_CANON records with its result (R276, R340). -/
def wgOutcomes : WgResult → List ErrorOutcome
  | .noise _ => [.noiseMessage]
  | .zero => [.zeroCredential]
  | .nothing => []
  | .cred _ => []
  | .key _ => []

/-- The transmission WG_FORWARD(res) calls, if any (R278). -/
def forwardSteps (p : Params) (x : XlateOption) (res : WgResult) : List TxStep :=
  match x with
  | .none => []
  | .fmt32 =>
    match res with
    | .cred r => tx32Steps r
    | .nothing | .noise _ | .zero | .key _ => []
  | .clockData =>
    match res with
    | .cred r => txCredSteps p r
    | .key code =>
      match wgKeymap code with
      | some c => txKeySteps p c
      | none => []
    | .nothing | .noise _ | .zero => []

/-- The result of a taken message (R273). -/
def wgDecoded (msg : List Bool) : WgResult := wgCanon msg.length (wgRaw msg)

/-- WGPOLL between its take and its transmission (R273): canonicalise, record, return. -/
def wgConclude (msg : List Bool) (s : State) : State :=
  give (.wiegand (wgDecoded msg)) (recordAll (wgOutcomes (wgDecoded msg)) s)

/-- WGPOLL (R273), with nothing interleaved. -/
def wgPoll (s : State) : State :=
  match wgTake s with
  | (t, none) => give (.wiegand .nothing) t
  | (t, some msg) => txRun (forwardSteps s.cfg s.xlateOption (wgDecoded msg)) (wgConclude msg t)

/-! ### The operations -/

/-- WGPULSE (R270). -/
def execWgpulse (k : Bool) (s : State) : Host.Outcome State Fault Refusal := .next (wgPulse k s)

/-- ISR_WG0 (R271). -/
def execIsrWg0 (s : State) : Host.Outcome State Fault Refusal := .next (service .wg0 (wgBody false) s)

/-- ISR_WG1 (R272). -/
def execIsrWg1 (s : State) : Host.Outcome State Fault Refusal := .next (service .wg1 (wgBody true) s)

/-- WGPOLL (R273), enabled outside a drain and outside a transmission (R353). -/
def execWgpoll (s : State) : Host.Outcome State Fault Refusal := .next (whenever (pollFree s) wgPoll s)

/-- WG_RAW (R275). -/
def execWgRaw (msg : List Bool) (s : State) : Host.Outcome State Fault Refusal :=
  .next (give (.raw (wgRaw msg)) s)

/-- WG_CANON (R276). -/
def execWgCanon (n v : Nat) (s : State) : Host.Outcome State Fault Refusal :=
  .next (give (.wiegand (wgCanon n v)) (recordAll (wgOutcomes (wgCanon n v)) s))

/-- WG_KEYMAP (R277). -/
def execWgKeymap (code : U4) (s : State) : Host.Outcome State Fault Refusal :=
  .next (give (.keyOf (wgKeymap code)) s)

/-- WG_FORWARD (R278). -/
def execWgForward (res : WgResult) (s : State) : Host.Outcome State Fault Refusal :=
  .next (txRun (forwardSteps s.cfg s.xlateOption res) s)

end Sys2Proof.Machine
end

