-- ==== Sys2Proof/Machine/Composite.lean ====
section
/-! DEFINITION. The composite polling operations micro-step by micro-step (R79, R273, R300, R356), so that
interrupt services and the environment can be ordered between the micro-steps. -/

namespace Sys2Proof.Machine

/-- The first micro-step of a transmission; the rest waits in `txRest`. -/
def txStart (ts : List TxStep) (s : State) : State :=
  match ts with
  | [] => s
  | t :: rest => { txStep t s with txRest := rest }

/-- The first micro-step of WGPOLL, the take (R273). -/
def wgStart (s : State) : State :=
  match wgTake s with
  | (t, none) => give (.wiegand .nothing) t
  | (t, some msg) => { t with wgTaken := some msg }

/-- The second micro-step of WGPOLL: canonicalise and forward (R79). -/
def wgContinue (msg : List Bool) (s : State) : State :=
  txStart (forwardSteps s.cfg s.xlateOption (wgDecoded msg)) { wgConclude msg s with wgTaken := none }

/-- The next micro-step of the composite operation in progress; nothing where none is. -/
def resume (s : State) : State :=
  match s.wgTaken with
  | some msg => wgContinue msg s
  | none =>
    match s.txRest with
    | [] => s
    | t :: rest => txStep t { s with txRest := rest }

/-- The first micro-step of a composite operation that leaves its others to `resume`. DRAIN's first is
DRAIN_BEGIN and its others have words of their own (R162). None for an operation that is one step. -/
def startOp (i : Instr) (s : State) : Option State :=
  match i with
  | .tx32 v => some (whenever (pollFree s) (txStart (tx32Steps v)) s)
  | .txcred v => some (whenever (pollFree s) (txStart (txCredSteps s.cfg v)) s)
  | .txkey c => some (whenever (pollFree s) (txStart (txKeySteps s.cfg c)) s)
  | .wgpoll => some (whenever (pollFree s) wgStart s)
  | .drain => some (whenever (txFree s) (fun t => (drainBegin t).1) s)
  | .reset | .adv _ | .capedge _ | .pgaset _ | .wgpulse _ | .isrCapt | .isrPca | .isrWg0 | .isrWg1
  | .isrTov | .cli | .sti | .now | .irread _ | .register _ _ _ _ | .drainBegin | .drainStep | .drainEnd
  | .stamp _ | .enq _ | .tickenq | .dispatch _ _ | .discard _ _ | .edgekind _ _ _ | .conv _ _
  | .irEdge _ _ _ _ _ | .irFallStart _ | .irFallSync _ | .irFallRepeat _ | .irFallAbort _
  | .irFallBit _ _ _ | .irPublish _ _ | .irRise _ _ | .wgRaw _ | .wgCanon _ _ | .wgKeymap _
  | .wgForward _ | .emit _ _ | .wait _ | .tx32Bit _ | .cdBit _ | .cdWord _ | .cdFrame _ => none

/-- The configuration provider fixes the translation option (R5, R381 step 3): during setup only, for it is
constant afterwards (R44). A code that names no option changes nothing. -/
def configure (code : Int) (s : State) : State :=
  if s.setup then { s with xlateOption := (Config.xlateCode code).getD s.xlateOption } else s

end Sys2Proof.Machine
end

