-- ==== Sys2Proof/Machine/Dispatch.lean ====
section
/-! DEFINITION. One arm per operation, in the order of the opcode table. -/

namespace Sys2Proof.Machine

/-- The meaning of an operation. -/
def exec (i : Instr) (s : State) : Host.Outcome State Fault Refusal :=
  match i with
  | .reset => Sys2Proof.Machine.execReset s
  | .adv n => Sys2Proof.Machine.execAdv n s
  | .capedge l => Sys2Proof.Machine.execCapedge l s
  | .pgaset v => Sys2Proof.Machine.execPgaset v s
  | .wgpulse k => Sys2Proof.Machine.execWgpulse k s
  | .isrCapt => Sys2Proof.Machine.execIsrCapt s
  | .isrPca => Sys2Proof.Machine.execIsrPca s
  | .isrWg0 => Sys2Proof.Machine.execIsrWg0 s
  | .isrWg1 => Sys2Proof.Machine.execIsrWg1 s
  | .isrTov => Sys2Proof.Machine.execIsrTov s
  | .cli => Sys2Proof.Machine.execCli s
  | .sti => Sys2Proof.Machine.execSti s
  | .now => Sys2Proof.Machine.execNow s
  | .drain => Sys2Proof.Machine.execDrain s
  | .irread k => Sys2Proof.Machine.execIrread k s
  | .wgpoll => Sys2Proof.Machine.execWgpoll s
  | .tx32 v => Sys2Proof.Machine.execTx32 v s
  | .txcred v => Sys2Proof.Machine.execTxcred v s
  | .txkey c => Sys2Proof.Machine.execTxkey c s
  | .register source protocol mask rate => Sys2Proof.Machine.execRegister source protocol mask rate s
  | .drainBegin => Sys2Proof.Machine.execDrainBegin s
  | .drainStep => Sys2Proof.Machine.execDrainStep s
  | .drainEnd => Sys2Proof.Machine.execDrainEnd s
  | .stamp c => Sys2Proof.Machine.execStamp c s
  | .enq e => Sys2Proof.Machine.execEnq e s
  | .tickenq => Sys2Proof.Machine.execTickenq s
  | .dispatch k e => Sys2Proof.Machine.execDispatch k e s
  | .discard k e => Sys2Proof.Machine.execDiscard k e s
  | .edgekind old new tick => Sys2Proof.Machine.execEdgekind old new tick s
  | .conv rate d => Sys2Proof.Machine.execConv rate d s
  | .irEdge k kind delta units ts => Sys2Proof.Machine.execIrEdge k kind delta units ts s
  | .irFallStart k => Sys2Proof.Machine.execIrFallStart k s
  | .irFallSync k => Sys2Proof.Machine.execIrFallSync k s
  | .irFallRepeat k => Sys2Proof.Machine.execIrFallRepeat k s
  | .irFallAbort k => Sys2Proof.Machine.execIrFallAbort k s
  | .irFallBit k delta ts => Sys2Proof.Machine.execIrFallBit k delta ts s
  | .irPublish k ts => Sys2Proof.Machine.execIrPublish k ts s
  | .irRise k delta => Sys2Proof.Machine.execIrRise k delta s
  | .wgRaw msg => Sys2Proof.Machine.execWgRaw msg s
  | .wgCanon n v => Sys2Proof.Machine.execWgCanon n v s
  | .wgKeymap code => Sys2Proof.Machine.execWgKeymap code s
  | .wgForward res => Sys2Proof.Machine.execWgForward res s
  | .emit sig lvl => Sys2Proof.Machine.execEmit sig lvl s
  | .wait us => Sys2Proof.Machine.execWait us s
  | .tx32Bit b => Sys2Proof.Machine.execTx32Bit b s
  | .cdBit b => Sys2Proof.Machine.execCdBit b s
  | .cdWord w => Sys2Proof.Machine.execCdWord w s
  | .cdFrame words => Sys2Proof.Machine.execCdFrame words s

end Sys2Proof.Machine
end

