-- ==== Sys2Proof/Machine/Fetch.lean ====
section
/-! DEFINITION. Taking the next item of the input and performing it. -/

namespace Sys2Proof.Machine

/-- A word issued as one stimulus: its operation, or nothing where it selects none (R104). -/
def issueWord (w : SelectWord) (s : State) : Host.Outcome State Fault Refusal :=
  match decode w with
  | .ok i => exec i s
  | .error _ => .next s

/-- A word issued micro-step by micro-step: the first micro-step of a composite operation, or the whole of an
operation that is one step. -/
def startWord (w : SelectWord) (s : State) : Host.Outcome State Fault Refusal :=
  match decode w with
  | .error _ => .next s
  | .ok i =>
    match startOp i s with
    | some t => .next t
    | none => exec i s

/-- Performs one item of the input. -/
def perform (x : Stimulus) (s : State) : Host.Outcome State Fault Refusal :=
  match x with
  | .issue w => issueWord w s
  | .start w => startWord w s
  | .resume => .next (resume s)
  | .configure code => .next (configure code s)

/-- Takes the next item of the input and performs it; without input the machine does nothing (log entry 4). -/
def takeNext (s : State) : Host.Outcome State Fault Refusal :=
  match s.stim with
  | [] => .next s
  | x :: rest => perform x { s with stim := rest }

/-- Puts a word at the front of the input. -/
def pushWord (w : SelectWord) (s : State) : State := { s with stim := .issue w :: s.stim }

end Sys2Proof.Machine
end

