-- ==== Sys2Proof/Machine/Step.lean ====
section
/-! DEFINITION. One step of the machine, and where the host places the next word. -/

namespace Sys2Proof.Machine

/-- One step: the next item of the input (R79: one step of one agent). -/
def step (s : State) : Host.Outcome State Fault Refusal := takeNext s

/-- `s` with the word whose bits are `w` as the next item of the input. -/
def State.withFetchWord (s : State) (nbits w : Nat) : State := pushWord (BitVec.ofNat 48 (w % 2 ^ nbits)) s

end Sys2Proof.Machine
end

