-- ==== Sys2Proof/Safety.lean ====
section
/-! DEFINITION. The terms the claims are stated in: runs, what the spec's rules say in arithmetic, and the
invariants. The helpers here follow the spec's words and not the definitions of Machine/. -/

namespace Sys2Proof.Machine

/-! ### The select word (R101) -/

/-- The word with the three fields `op`, `a` and `b`. -/
def selectWord (op a b : Nat) : SelectWord := BitVec.ofNat 48 (op * 2 ^ 40 + a * 2 ^ 32 + b)

/-! ### Runs -/

/-- Performs the operations one after the other. -/
def runOps : List Instr → State → State
  | [], s => s
  | i :: is, s =>
    match exec i s with
    | .next t => runOps is t
    | .fault _ => s
    | .refused _ => s

/-- One step of a run (R79): a whole operation, the first micro-step of one that has others (or the whole of one that has
none), or the next micro-step of the one in progress. -/
inductive RunItem where
  | whole (i : Instr)
  | start (i : Instr)
  | resume
  deriving DecidableEq, Repr

/-- Performs one step of a run. -/
def runItem (x : RunItem) (s : State) : State :=
  match x with
  | .whole i => runOps [i] s
  | .start i => (startOp i s).getD (runOps [i] s)
  | .resume => resume s

/-- Performs the steps one after the other. -/
def runItems (xs : List RunItem) (s : State) : State := xs.foldl (fun t x => runItem x t) s

/-- A safe run: no number of steps ends in a fault or a refusal ("nothing in this block halts or traps"). -/
def RunsForever (s : State) : Prop := ∀ k, ∃ t, Host.Core.run Sys2Proof.core k s = .next t

/-- The polling context is between operations (R353, R356). -/
abbrev BetweenOperations (s : State) : Prop := s.drainLock = false ∧ s.wgTaken = none ∧ s.txRest = []

/-! ### The clock (R24, R150, R152) -/

/-- One pass of the loop of R150. -/
def oneTick (s : State) : State :=
  if s.hardwareCounter + 1 = 0 then
    { s with T := s.T + 1, hardwareCounter := 0, clockLost := s.clockLost || s.ovfFlag, ovfFlag := true }
  else { s with T := s.T + 1, hardwareCounter := s.hardwareCounter + 1 }

/-- `TICK_NS` in nanoseconds (R7). -/
def periodNs : TickPeriod → Nat
  | .ns4000 => 4000
  | .ns500 => 500
  | .ns125 => 125

/-- The ticks of a hold of 40 µs (R302). -/
def ticks40 : TickPeriod → Nat
  | .ns4000 => 10
  | .ns500 => 80
  | .ns125 => 320

/-- The ticks of a hold of 200 µs (R302). -/
def ticks200 : TickPeriod → Nat
  | .ns4000 => 50
  | .ns500 => 400
  | .ns125 => 1600

/-- `WG_TIMEOUT_TICKS` (R7). -/
def timeoutTicks : TickPeriod → Nat
  | .ns4000 => 5000
  | .ns500 => 40000
  | .ns125 => 160000

/-- The timestamp of an instant at which the counter read `c` (R152), in arithmetic. -/
def timestampAt (s : State) (c : U16) : U32 :=
  BitVec.ofNat 32 (((s.overflowCount.toNat + if s.ovfFlag ∧ c.toNat < 32768 then 1 else 0) % 65536) * 65536 + c.toNat)

/-- The clock invariant of R24. -/
abbrev ClockInv (s : State) : Prop :=
  s.hardwareCounter.toNat = s.T % 65536 ∧
  (s.clockLost = false → (s.overflowCount.toNat + s.ovfFlag.toNat) % 65536 = s.T / 65536 % 65536)

/-! ### The queue (R31 to R35, R110, R154) -/

/-- `Q.count` (R33) of indices that are stored masked. -/
def queueCount (s : State) : Nat := (s.qHead + qcap s.cfg - s.qTail) % qcap s.cfg

/-- The queued events, oldest first. -/
def queued (s : State) : List EdgeEvent :=
  (List.range (queueCount s)).map fun j => s.slots.read ((s.qTail + j) % qcap s.cfg)

/-- The queue's invariant: indices masked (R32), the drain within its bound (R35), the slot space in its
canonical form within its addresses (R70), every record a legal one (R110). -/
abbrev QueueInv (s : State) : Prop :=
  s.qHead < qcap s.cfg ∧ s.qTail < qcap s.cfg ∧ s.drainN ≤ s.cfg.drainMax ∧
  s.slots.wf ∧ ∀ c ∈ s.slots, c.1 < qcap s.cfg ∧ c.2.legal = true

/-- What ENQ(e) makes of `s` (R154): the event is dropped and nothing but the log changes where the queue is
full; otherwise it is written to slot `Q.head`, no other slot changes, and it is the newest queued event. -/
def Enqueued (e : EdgeEvent) (s t : State) : Prop :=
  ((s.qHead + 1) % qcap s.cfg = s.qTail → t = { s with outcomes := s.outcomes ++ [.queueOverflow] }) ∧
  ((s.qHead + 1) % qcap s.cfg ≠ s.qTail →
    t = { s with slots := t.slots, qHead := (s.qHead + 1) % qcap s.cfg } ∧
    t.slots.read s.qHead = e ∧ (∀ k, k ≠ s.qHead → t.slots.read k = s.slots.read k) ∧
    queued t = queued s ++ [e])

/-- The DISPATCH operations that offer an event to every instance in registration order (R160). -/
def dispatchOps (n : Nat) (e : EdgeEvent) : List Instr := (List.range n).map fun i => .dispatch i e

/-! ### The instances (R37 to R40, R239) -/

/-- What an operation on `inst[i]` leaves: the instance `J`, the outcomes `os`, nothing else changed. -/
def withInst (i : Nat) (J : Instance) (os : List ErrorOutcome) (s : State) : State :=
  { s with inst := s.inst.set i J, outcomes := s.outcomes ++ os }

/-- `acc_time` after a handled event of duration `units` (R230). -/
def accAfter (acc : U32) (units : Int) : U32 := BitVec.ofNat 32 (min 4294967295 (acc.toNat + units.toNat))

/-- The invariants (a) to (d) of R239. -/
abbrev IrInv (I : Instance) : Prop :=
  (I.inWord = .sawStart → I.bitsReceived = 0 ∧ I.bitAccumulator = 0) ∧
  (I.inWord = .inData → I.bitsReceived ≤ 31 ∧ I.bitAccumulator.toNat < 2 ^ I.bitsReceived) ∧
  (I.capturedBitCount = 0 ∨ I.capturedBitCount = 1 ∨ I.capturedBitCount = 32) ∧
  (I.capturedBitCount = 1 → I.capturedMessage = 1) ∧
  (I.capturedBitCount = 0 → I.capturedMessage = 0) ∧
  I.bitsReceived ≤ 32

/-- The registry's invariant: within its capacity (R36), every mask a legal one (R37, R200), every
`last_level` masked (R38). -/
abbrev RegistryInv (s : State) : Prop :=
  s.inst.length ≤ s.cfg.nInst ∧
  ∀ I ∈ s.inst, registerLegal I.source I.mask = true ∧ (I.lastLevel = 0 ∨ I.lastLevel = I.mask)

/-! ### The wire formats (R125 to R131) -/

/-- One pulse of the 32-bit format (R306). -/
def pulseItems (b : Bool) : List TraceItem :=
  if b then [.emit .tx1 false, .wait 40, .emit .tx1 true, .wait 200]
  else [.emit .tx0 false, .wait 40, .emit .tx0 true, .wait 200]

/-- One bit cell of the clock/data format (R126): a 1 is data low. -/
def cellItems (b : Bool) : List TraceItem :=
  [.emit .txData (!b), .emit .txClk false, .wait 200, .emit .txClk true, .wait 200]

/-- The five cells of a word (R127): bit 0 first, then a parity bit that makes the number of ones odd. -/
def wordCells (w : U4) : List Bool :=
  [w.getLsbD 0, w.getLsbD 1, w.getLsbD 2, w.getLsbD 3,
   decide (([w.getLsbD 0, w.getLsbD 1, w.getLsbD 2, w.getLsbD 3].count true) % 2 = 0)]

/-- The cells of a frame (R128): ten pulses with data high, the words, the exclusive-or of the words as one
more word, ten pulses with data high. -/
def frameCells (words : List U4) : List Bool :=
  List.replicate 10 false ++ words.flatMap wordCells ++ wordCells (words.foldr (· ^^^ ·) 0)
    ++ List.replicate 10 false

/-- The credential frame (R129): the sentinels and the eight decimal digits of `r`, most significant first. -/
def credentialWords (p : Params) (r : Nat) : List U4 :=
  [p.cdStart, BitVec.ofNat 4 (r / 10000000 % 10), BitVec.ofNat 4 (r / 1000000 % 10),
   BitVec.ofNat 4 (r / 100000 % 10), BitVec.ofNat 4 (r / 10000 % 10), BitVec.ofNat 4 (r / 1000 % 10),
   BitVec.ofNat 4 (r / 100 % 10), BitVec.ofNat 4 (r / 10 % 10), BitVec.ofNat 4 (r % 10), p.cdEnd]

/-- The two slots of a key (R131). -/
def keySlots : Key → Nat × Nat
  | .digit d => (0, if d.val = 0 then 9 else d.val - 1)
  | .star => (1, 0)
  | .hash => (1, 1)
  | .bell => (1, 5)

/-- The keypress frame (R130): the key's slot values at the layout's two places, the layout's sentinel at each other. -/
def keypressWords (p : Params) (c : Key) : List U4 :=
  (List.finRange 6).map fun j =>
    if j = p.keyLayout.slot1 then BitVec.ofNat 4 (keySlots c).1
    else if j.val = (p.keyLayout.slot1.val + p.keyLayout.slot2Gap.val + 1) % 6 then BitVec.ofNat 4 (keySlots c).2
    else
      match p.keyLayout.fill.get j with
      | .start => p.cdStart
      | .sep => p.cdSep
      | .stop => p.cdEnd

/-- The lines a pulse sequence pulses, first to last: `false` for TX0, `true` for TX1. -/
def pulsedLines (items : List TraceItem) : List Bool :=
  items.filterMap fun t =>
    match t with
    | .emit .tx0 false => some false
    | .emit .tx1 false => some true
    | .emit .tx0 true => none
    | .emit .tx1 true => none
    | .emit .txClk _ => none
    | .emit .txData _ => none
    | .wait _ => none

/-- All four output lines are high (R45). -/
abbrev LinesHigh (s : State) : Prop := s.tx0 = true ∧ s.tx1 = true ∧ s.txClk = true ∧ s.txData = true

/-! ### The composite operations (R300, R305, R356) -/

/-- What one micro-step of a transmission does (R300, R301, R302, R305). -/
def performed (m : TxStep) (s : State) : State :=
  match m with
  | .item (.emit sig lvl) => runOps [.emit sig lvl] s
  | .item (.wait us) => runOps [.wait us] s
  | .setIntEnable b => { s with intEnable := b }
  | .record o => { s with outcomes := s.outcomes ++ [o] }

/-- Performs the first of the micro-steps `ms` and leaves exactly the others to come; nothing where there is none. -/
def nextMicroStep (ms : List TxStep) (s : State) : State :=
  match ms with
  | [] => s
  | m :: rest => performed m { s with txRest := rest }

/-- The micro-steps of the 32 pulses of TX32 (R305), bit 31 first. -/
def pulseMicroSteps (v : U32) : List TxStep :=
  ((List.range 32).flatMap fun j => pulseItems (v.getLsbD (31 - j))).map .item

/-- The micro-steps of a frame (R312). -/
def frameMicroSteps (words : List U4) : List TxStep := ((frameCells words).flatMap cellItems).map .item

/-- The micro-steps of TX32 (R305): masked before the first pulse, unmasked after the last. -/
def tx32MicroSteps (v : U32) : List TxStep :=
  if v = 0 then [.record .zeroCredential] else .setIntEnable false :: pulseMicroSteps v ++ [.setIntEnable true]

/-- The micro-steps of TXCRED (R315). -/
def txcredMicroSteps (p : Params) (v : U32) : List TxStep :=
  if v.toNat % 100000000 = 0 then [.record .zeroCredential]
  else frameMicroSteps (credentialWords p (v.toNat % 100000000))

/-- The transmission that WG_FORWARD calls for a result, if any (R277, R278). -/
def forwardedTo (x : XlateOption) (res : WgResult) : Option Instr :=
  match x, res with
  | .fmt32, .cred r => some (.tx32 r)
  | .clockData, .cred r => some (.txcred r)
  | .clockData, .key code =>
    if h : code.toNat < 10 then some (.txkey (.digit ⟨code.toNat, h⟩))
    else if code = 10 then some (.txkey .star)
    else if code = 11 then some (.txkey .hash)
    else none
  | .none, _ | .fmt32, .nothing | .fmt32, .noise _ | .fmt32, .zero | .fmt32, .key _
  | .clockData, .nothing | .clockData, .noise _ | .clockData, .zero => none

/-! ### Ownership (R52) -/

/-- From `s` to `t` no interrupt-owned field is written, no pending bit cleared, and `wg_bits` at most emptied. -/
abbrev KeepsInterruptOwned (s t : State) : Prop :=
  t.qHead = s.qHead ∧ t.slots = s.slots ∧ t.overflowCount = s.overflowCount ∧ t.wgLastTs = s.wgLastTs ∧
  (s.ovfFlag = true → t.ovfFlag = true) ∧ (s.pendCapt = true → t.pendCapt = true) ∧
  (s.pendPca = true → t.pendPca = true) ∧ (s.pendWg0 = true → t.pendWg0 = true) ∧
  (s.pendWg1 = true → t.pendWg1 = true) ∧ (t.wgBits = s.wgBits ∨ t.wgBits = [])

/-- From `s` to `t` no polling-owned field is written, and `wg_bits` at most appended to. -/
abbrev KeepsPollingOwned (s t : State) : Prop :=
  t.qTail = s.qTail ∧ t.drainLock = s.drainLock ∧ t.drainN = s.drainN ∧ t.inst = s.inst ∧
  t.wgDiagLen = s.wgDiagLen ∧ t.wgDiagTs = s.wgDiagTs ∧ t.tx0 = s.tx0 ∧ t.tx1 = s.tx1 ∧ t.txClk = s.txClk ∧
  t.txData = s.txData ∧ t.trace = s.trace ∧ s.wgBits <+: t.wgBits

/-! ### The invariants of the polling context and of the Wiegand decoder -/

/-- The invariant of the polling context: a WGPOLL between its micro-steps has nothing to send yet, no
composite operation runs inside a drain, what is left of a transmission is `Emit` and `Wait` items and, for
TX32, the final unmasking with interrupts masked until then, and what is left ends with all lines high. -/
abbrev PollInv (s : State) : Prop :=
  (s.wgTaken ≠ none → s.txRest = []) ∧
  (s.wgTaken ≠ none ∨ s.txRest ≠ [] → s.drainLock = false) ∧
  (∃ items : List TraceItem, s.txRest = items.map TxStep.item ∨
    (s.txRest = items.map TxStep.item ++ [.setIntEnable true] ∧ s.intEnable = false)) ∧
  LinesHigh (txRun s.txRest s)

/-- The Wiegand buffer is within its capacity (R41). -/
abbrev WiegandInv (s : State) : Prop :=
  s.wgBits.length ≤ 70 ∧ ∀ msg, s.wgTaken = some msg → 1 ≤ msg.length ∧ msg.length ≤ 70

/-! ### Reset (R380) -/

/-- Every field that R380 gives a value has that value. -/
abbrev AtReset (s : State) : Prop :=
  s.hardwareCounter = 0 ∧ s.ovfFlag = false ∧ s.overflowCount = 0 ∧ s.T = 0 ∧ s.clockLost = false ∧
  s.intEnable = false ∧ s.pendCapt = false ∧ s.pendPca = false ∧ s.pendWg0 = false ∧ s.pendWg1 = false ∧
  s.capIn = true ∧ s.pgaIn = 0xFF ∧ s.qHead = 0 ∧ s.qTail = 0 ∧ s.drainLock = false ∧ s.drainN = 0 ∧
  s.inst = [] ∧ s.wgBits = [] ∧ s.wgLastTs = 0 ∧ s.wgDiagLen = 0 ∧ s.wgDiagTs = 0 ∧
  s.tx0 = true ∧ s.tx1 = true ∧ s.txClk = true ∧ s.txData = true ∧ s.trace = []

end Sys2Proof.Machine
end

