-- ==== Sys2Proof/Certificates/Slice0/Obligations.lean ====
section
/-! DEFINITION. The statements, family by family in the opcode table's order. An operation's next state is written out
with every field it does not name unchanged, so that each result is also its frame. -/

open Sys2Proof Sys2Proof.Machine

/-! ### The select word and the step -/

/-- R102 as a sample: words written out from the table of R102 and the operand layouts of R103. -/
def Obligations.SampleWordsDecode : Prop :=
  decode 0x000000000000 = .ok .reset ∧ decode 0x01000000FA07 = .ok (.adv 64007) ∧
  decode 0x020100000000 = .ok (.capedge true) ∧ decode 0x03FB00000000 = .ok (.pgaset 0xFB) ∧
  decode 0x040100000000 = .ok (.wgpulse true) ∧ decode 0x0B0000000000 = .ok .isrWg1 ∧
  decode 0x140300000000 = .ok (.irread 3) ∧ decode 0x1600A5A5A5A5 = .ok (.tx32 0xA5A5A5A5) ∧
  decode 0x182300000000 = .ok (.txkey .hash) ∧ decode 0x183900000000 = .ok (.txkey (.digit 9)) ∧
  decode 0x198300000080 = .ok (.register .pinGroupA .infrared 0x80 .ns125) ∧
  decode 0x1C0000000000 = .ok .drainEnd ∧ decode 0x050000000000 = .error .unlistedOp ∧
  decode 0x190500000001 = .error .reservedProtocol

/-- R102, R103: every operation code with its operands selects its operation, and every other code none. -/
def Obligations.OperationCodesSelectTheirOperations : Prop :=
  (∀ p ∈ [(0x00, Instr.reset), (0x08, .isrCapt), (0x09, .isrPca), (0x0A, .isrWg0), (0x0B, .isrWg1), (0x0C, .isrTov),
      (0x10, .cli), (0x11, .sti), (0x12, .now), (0x13, .drain), (0x15, .wgpoll), (0x1A, .drainBegin),
      (0x1B, .drainStep), (0x1C, .drainEnd)], decode (selectWord p.1 0 0) = .ok p.2) ∧
  (∀ n : U32, decode (selectWord 0x01 0 n.toNat) = .ok (.adv n) ∧ decode (selectWord 0x16 0 n.toNat) = .ok (.tx32 n) ∧
    decode (selectWord 0x17 0 n.toNat) = .ok (.txcred n)) ∧
  (∀ v : U8, decode (selectWord 0x03 v.toNat 0) = .ok (.pgaset v) ∧ decode (selectWord 0x14 v.toNat 0) = .ok (.irread v)) ∧
  (∀ l : Bool, decode (selectWord 0x02 l.toNat 0) = .ok (.capedge l) ∧
    decode (selectWord 0x04 l.toNat 0) = .ok (.wgpulse l)) ∧
  (∀ d : Fin 10, decode (selectWord 0x18 (0x30 + d.val) 0) = .ok (.txkey (.digit d))) ∧
  decode (selectWord 0x18 0x2A 0) = .ok (.txkey .star) ∧ decode (selectWord 0x18 0x23 0) = .ok (.txkey .hash) ∧
  decode (selectWord 0x18 0x07 0) = .ok (.txkey .bell) ∧
  (∀ k < 8, ∀ r ∈ [(0, ClockRate.raw4us), (1, .ns4000), (2, .ns500), (3, .ns125)],
    decode (selectWord 0x19 (0x80 + r.1) (2 ^ k)) = .ok (.register .pinGroupA .infrared (BitVec.ofNat 8 (2 ^ k)) r.2) ∧
    decode (selectWord 0x19 r.1 1) = .ok (.register .timer .infrared 1 r.2)) ∧
  ∀ op a b : Nat, op < 256 → a < 256 → b < 2 ^ 32 → op ∉ [0x00, 0x01, 0x02, 0x03, 0x04, 0x08, 0x09, 0x0A, 0x0B, 0x0C,
    0x10, 0x11, 0x12, 0x13, 0x14, 0x15, 0x16, 0x17, 0x18, 0x19, 0x1A, 0x1B, 0x1C] →
    decode (selectWord op a b) = .error .unlistedOp

/-- Decode of encode is the operation, for every well-formed operation that has a word; the operations without
one are the sub-operations (R100). -/
def Obligations.DecodeOfEncodeIsTheOperation : Prop :=
  ∀ i : Instr, i.wellFormed = true →
    (∀ w, encode i = some w → decode w = .ok i) ∧ (encode i = none ↔ i.agent = .sub)

/-- A word that decodes is the one word of its operation, and the operation is well formed: no operand bit is
read twice or dropped. -/
def Obligations.EncodeOfDecodeIsTheWord : Prop :=
  ∀ (w : SelectWord) (i : Instr), decode w = .ok i → encode i = some w ∧ i.wellFormed = true

/-- R110: the layout of the packed record; it gives the event back, and every 42 bits are the record of one event. -/
def Obligations.EventRecordLayoutAndRoundTrip : Prop :=
  (∀ e : EdgeEvent, e.pack.toNat = (if e.source = .pinGroupA then 2 ^ 41 else 0) + (if e.tick = true then 2 ^ 40 else 0)
      + e.level.toNat * 2 ^ 32 + e.timestamp.toNat) ∧
  (∀ e : EdgeEvent, EdgeEvent.unpack e.pack = e) ∧ ∀ p : BitVec 42, (EdgeEvent.unpack p).pack = p

/-- R79: a step takes the next item of the input and performs it on the state without that item. A word that is issued
runs exactly the operation it decodes to; a word that is started runs its first micro-step, or the whole operation where
it has no others, and nothing where it decodes to none; `resume` is the next micro-step of the operation in progress.
`State.withFetchWord` puts a word to issue there. The input and its items are the model's (log entries 4, 6 and 17). -/
def Obligations.StepRunsTheDecodedOperation : Prop :=
  (∀ (s : State) (w : SelectWord) (rest : List Stimulus) (i : Instr),
    s.stim = .issue w :: rest → decode w = .ok i → step s = exec i { s with stim := rest }) ∧
  (∀ (s : State) (w : SelectWord) (rest : List Stimulus) (i : Instr),
    s.stim = .start w :: rest → decode w = .ok i →
      (∀ u, startOp i { s with stim := rest } = some u → step s = .next u) ∧
      (startOp i { s with stim := rest } = none → step s = exec i { s with stim := rest })) ∧
  (∀ (s : State) (w : SelectWord) (rest : List Stimulus) (e : Reject),
    s.stim = .start w :: rest → decode w = .error e → step s = .next { s with stim := rest }) ∧
  (∀ (s : State) (rest : List Stimulus),
    s.stim = .resume :: rest → step s = .next (resume { s with stim := rest })) ∧
  (∀ (s : State) (w : Nat), w < 2 ^ 48 →
    (s.withFetchWord 48 w).stim = .issue (BitVec.ofNat 48 w) :: s.stim ∧
    { s.withFetchWord 48 w with stim := s.stim } = s)

/-- R104: a word that is the word of no well-formed operation, and an IRREAD whose index is not below `n_inst`,
selects no operation: the step takes the word, issued or started, and changes nothing. -/
def Obligations.ReservedWordsChangeNothing : Prop :=
  (∀ (s : State) (w : SelectWord) (rest : List Stimulus), s.stim = .issue w :: rest ∨ s.stim = .start w :: rest →
    (∀ i : Instr, i.wellFormed = true → encode i ≠ some w) → step s = .next { s with stim := rest }) ∧
  (∀ (s : State) (k : U8), s.inst.length ≤ k.toNat → exec (.irread k) s = .next s)

/-- No run stops, from any state and on any input. That a run goes on once its input is used up is the model's choice:
the step without input changes nothing (log entry 4). -/
def Obligations.EveryRunGoesOn : Prop :=
  ∀ s : State, RunsForever s ∧ (s.stim = [] → step s = .next s)

/-! ### Reset, the clock and the inputs -/

/-- R380, R355, R381: from every state RESET gives every field its reset value, leaves the translation option and starts
setup again. It abandons the composite operation in progress and keeps the parameters and the input (log entry 8). -/
def Obligations.ResetPutsEveryFieldAtItsResetValue : Prop :=
  (∀ s : State, ∃ t, exec .reset s = .next t ∧ AtReset t ∧ t.xlateOption = s.xlateOption ∧ t.setup = true ∧
    t.wgTaken = none ∧ t.txRest = [] ∧ t.cfg = s.cfg ∧ t.stim = s.stim) ∧
  AtReset State.reset ∧ State.reset.xlateOption = .none ∧ State.reset.setup = true ∧ BetweenOperations State.reset

/-- R150: ADV n is n ticks, one by one. -/
def Obligations.AdvIsTicksOneByOne : Prop :=
  ∀ (n : U32) (s : State), exec (.adv n) s = .next (oneTick^[n.toNat] s)

/-- R151, R270: a change of the capture pin latches the counter and pends, no change does nothing; a Wiegand pulse
sets its line's pending bit. -/
def Obligations.CaptureEdgesAndWiegandPulsesPend : Prop :=
  ∀ (l : Bool) (s : State),
    (l ≠ s.capIn → exec (.capedge l) s = .next { s with capIn := l, icr := s.hardwareCounter, pendCapt := true }) ∧
    (l = s.capIn → exec (.capedge l) s = .next s) ∧
    exec (.wgpulse false) s = .next { s with pendWg0 := true } ∧
    exec (.wgpulse true) s = .next { s with pendWg1 := true }

/-- R166: the pins take their levels, and a change of a line that a pin-group instance monitors pends. -/
def Obligations.PgasetPendsOnAMonitoredChange : Prop :=
  ∀ (v : U8) (s : State), ∃ p : Bool,
    exec (.pgaset v) s = .next { s with pgaIn := v, pendPca := p } ∧
    (p = true ↔ s.pendPca = true ∨ ∃ k < 8, s.pgaIn.getLsbD k ≠ v.getLsbD k ∧
      ∃ I ∈ s.inst, I.source = .pinGroupA ∧ I.mask.getLsbD k = true)

/-- R152: STAMP adds a pending wrap to the high half exactly for a counter value of the low half. -/
def Obligations.StampCompensatesAPendingWrap : Prop :=
  ∀ (c : U16) (s : State), exec (.stamp c) s = .next { s with result := .time (timestampAt s c) }

/-- R153: STAMP of the counter value taken in `a` gives that instant's tick count modulo 2^32 in the later state
`b`, where (a) no wrap was lost, (b) fewer than 32768 ticks have passed, (c) a pending wrap happened fewer than
32768 ticks ago, (d) ISR_TOV has not run in between. The steps in between are whole operations and micro-steps (R79), in
any order, so a transmission may be between its micro-steps at either end; how an operation is cut into micro-steps, and
the place inside it, are the model's (log entries 6 and 17). -/
def Obligations.StampOfAnEarlierCaptureIsItsTickCount : Prop :=
  ∀ (a b : State) (xs : List RunItem), ClockInv a → runItems xs a = b →
    (∀ i, .whole i ∈ xs ∨ .start i ∈ xs → i ≠ .isrTov ∧ i ≠ .reset) → b.clockLost = false → b.T - a.T < 32768 →
    (b.ovfFlag = true → b.T % 65536 < 32768) →
    exec (.stamp a.hardwareCounter) b = .next { b with result := .time (BitVec.ofNat 32 a.T) }

/-- R163: between polling operations NOW returns STAMP(hardware_counter); it writes nothing else. Inside a
composite operation it is not enabled (log entry 7). -/
def Obligations.NowReturnsTheStampOfTheCounter : Prop :=
  ∀ s : State,
    (BetweenOperations s →
      exec .now s = .next { s with result := .time (timestampAt s s.hardwareCounter) }) ∧
    (¬ BetweenOperations s → exec .now s = .next s)

/-- R164, R165, R81: CLI masks, after which no service is enabled; STI unmasks and ends setup (R355). -/
def Obligations.CliMasksEveryServiceAndStiUnmasks : Prop :=
  ∀ s : State,
    (BetweenOperations s →
      exec .cli s = .next { s with intEnable := false } ∧
      (∀ i ∈ [Instr.isrCapt, .isrPca, .isrWg0, .isrWg1, .isrTov],
        exec i { s with intEnable := false } = .next { s with intEnable := false }) ∧
      exec .sti s = .next { s with intEnable := true, setup := false }) ∧
    (¬ BetweenOperations s → exec .cli s = .next s ∧ exec .sti s = .next s)

/-! ### Interrupt services -/

/-- R352: each service runs, clearing its pending bit, exactly under the condition of the rule, and does nothing
otherwise. -/
def Obligations.ServiceRunsExactlyWhenEnabled : Prop :=
  ∀ s : State,
    let go := s.intEnable = true
    let noCapt := s.pendCapt = false
    let noPca := s.pendPca = false
    let noWg := s.pendWg0 = false
    ((go ∧ s.pendCapt = true → ∃ t, exec .isrCapt s = .next t ∧ t.pendCapt = false) ∧
      (¬ (go ∧ s.pendCapt = true) → exec .isrCapt s = .next s)) ∧
    ((go ∧ s.pendPca = true ∧ noCapt → ∃ t, exec .isrPca s = .next t ∧ t.pendPca = false) ∧
      (¬ (go ∧ s.pendPca = true ∧ noCapt) → exec .isrPca s = .next s)) ∧
    ((go ∧ s.pendWg0 = true ∧ noCapt ∧ noPca → ∃ t, exec .isrWg0 s = .next t ∧ t.pendWg0 = false) ∧
      (¬ (go ∧ s.pendWg0 = true ∧ noCapt ∧ noPca) → exec .isrWg0 s = .next s)) ∧
    ((go ∧ s.pendWg1 = true ∧ noCapt ∧ noPca ∧ noWg → ∃ t, exec .isrWg1 s = .next t ∧ t.pendWg1 = false) ∧
      (¬ (go ∧ s.pendWg1 = true ∧ noCapt ∧ noPca ∧ noWg) → exec .isrWg1 s = .next s)) ∧
    ((go ∧ s.ovfFlag = true ∧ noCapt ∧ noPca ∧ noWg ∧ s.pendWg1 = false →
        ∃ t, exec .isrTov s = .next t ∧ t.ovfFlag = false) ∧
      (¬ (go ∧ s.ovfFlag = true ∧ noCapt ∧ noPca ∧ noWg ∧ s.pendWg1 = false) → exec .isrTov s = .next s))

/-- R156: the capture service enqueues the pin's level at service with the time of the latch. -/
def Obligations.IsrCaptEnqueuesLevelAndLatchTime : Prop :=
  ∀ s : State, QueueInv s → s.intEnable = true → s.pendCapt = true →
    ∃ t, exec .isrCapt s = .next t ∧
      Enqueued { source := .timer, tick := false, level := if s.capIn then 1 else 0, timestamp := timestampAt s s.icr }
        { s with pendCapt := false } t

/-- R157: the pin-group service enqueues all eight levels with the time of the service. -/
def Obligations.IsrPcaEnqueuesLevelsAndServiceTime : Prop :=
  ∀ s : State, QueueInv s → s.intEnable = true → s.pendPca = true → s.pendCapt = false →
    ∃ t, exec .isrPca s = .next t ∧
      Enqueued { source := .pinGroupA, tick := false, level := s.pgaIn, timestamp := timestampAt s s.hardwareCounter }
        { s with pendPca := false } t

/-- R271, R272: a Wiegand service appends its line's bit while fewer than 70 are held, and in any case restarts the
timeout. -/
def Obligations.IsrWgAppendsItsBitAndRestartsTheTimeout : Prop :=
  ∀ s : State, s.intEnable = true → s.pendCapt = false → s.pendPca = false →
    (s.pendWg0 = true →
      exec .isrWg0 s = .next { s with
        pendWg0 := false, wgLastTs := timestampAt s s.hardwareCounter,
        wgBits := if s.wgBits.length < 70 then s.wgBits ++ [false] else s.wgBits }) ∧
    (s.pendWg0 = false → s.pendWg1 = true →
      exec .isrWg1 s = .next { s with
        pendWg1 := false, wgLastTs := timestampAt s s.hardwareCounter,
        wgBits := if s.wgBits.length < 70 then s.wgBits ++ [true] else s.wgBits })

/-- R155: the overflow service counts the wrap and clears the flag; while the queue is empty it also enqueues a
Tick event with the counted time. -/
def Obligations.IsrTovCountsTheWrapAndOffersATick : Prop :=
  ∀ s : State, QueueInv s → s.intEnable = true → s.ovfFlag = true → s.pendCapt = false → s.pendPca = false →
    s.pendWg0 = false → s.pendWg1 = false →
    let u := { s with overflowCount := s.overflowCount + 1, ovfFlag := false }
    (s.qHead ≠ s.qTail → exec .isrTov s = .next u) ∧
    (s.qHead = s.qTail → ∃ t, exec .isrTov s = .next t ∧
      Enqueued { source := .timer, tick := true, level := if s.capIn then 1 else 0,
                 timestamp := timestampAt u s.hardwareCounter } u t)

/-! ### The queue -/

/-- R154: ENQ appends to the queue, or drops the event and changes nothing where the queue is full. -/
def Obligations.EnqAppendsOrDropsTheNewest : Prop :=
  ∀ (e : EdgeEvent) (s : State), QueueInv s → ∃ t, exec (.enq e) s = .next t ∧ Enqueued e s t

/-- R167: a Tick is offered only to an empty queue, and is then its one event. -/
def Obligations.TickenqOnlyWhileTheQueueIsEmpty : Prop :=
  ∀ s : State, QueueInv s →
    (s.qHead ≠ s.qTail → exec .tickenq s = .next s) ∧
    (s.qHead = s.qTail → ∃ t e, exec .tickenq s = .next t ∧ Enqueued e s t ∧ queued t = [e] ∧
      e.source = .timer ∧ e.tick = true ∧ e.level = (if s.capIn then 1 else 0) ∧
      e.timestamp.toNat = s.overflowCount.toNat * 65536 + s.hardwareCounter.toNat)

/-- R158, R159, R161, R356: the lock is taken with interrupts enabled, a nested request changes nothing, and DRAIN_END
releases the lock alone. Inside a WGPOLL or a transmission DRAIN_BEGIN and DRAIN_END are blocked; for DRAIN_BEGIN, which
R158 enables at any time, that is the model's reading (log entry 7). -/
def Obligations.DrainLockIsTakenOnceAndReleased : Prop :=
  ∀ s : State,
    (s.wgTaken = none → s.txRest = [] → s.drainLock = false →
      exec .drainBegin s = .next { s with drainLock := true, drainN := 0, intEnable := true, result := .acquired } ∧
      exec .drainEnd s = .next s) ∧
    (s.wgTaken = none → s.txRest = [] → s.drainLock = true →
      exec .drainBegin s = .next { s with result := .notAcquired } ∧
      exec .drain s = .next s ∧
      exec .drainEnd s = .next { s with drainLock := false }) ∧
    (s.wgTaken ≠ none ∨ s.txRest ≠ [] → exec .drainBegin s = .next s ∧ exec .drainEnd s = .next s)

/-- R160, R356: a drain step dispatches the oldest event to every instance in registration order, or is done; without
the lock, or inside a WGPOLL or a transmission (log entry 7), it does nothing. -/
def Obligations.DrainStepDispatchesTheOldestEvent : Prop :=
  ∀ s : State,
    (s.drainLock = false ∨ s.wgTaken ≠ none ∨ s.txRest ≠ [] → exec .drainStep s = .next s) ∧
    (QueueInv s → s.wgTaken = none → s.txRest = [] → s.drainLock = true → s.drainN = s.cfg.drainMax ∨ s.qHead = s.qTail →
      exec .drainStep s = .next { s with result := .done }) ∧
    (QueueInv s → s.wgTaken = none → s.txRest = [] → s.drainLock = true → s.drainN ≠ s.cfg.drainMax → s.qHead ≠ s.qTail →
      exec .drainStep s = .next { runOps (dispatchOps s.inst.length (s.slots.read s.qTail)) s with
        qTail := (s.qTail + 1) % qcap s.cfg, drainN := s.drainN + 1, result := .more })

/-- R162, R356: DRAIN dispatches the oldest events of the queue, in order, as many as there are but at most DRAIN_MAX,
and leaves the rest queued, the lock free and interrupts enabled; inside any composite operation it changes nothing
(log entry 7). -/
def Obligations.DrainDispatchesInOrderUpToTheBound : Prop :=
  ∀ s : State,
    (¬ BetweenOperations s → exec .drain s = .next s) ∧
    (QueueInv s → BetweenOperations s → ∃ t, exec .drain s = .next t ∧
      (let n := min s.cfg.drainMax (queued s).length
       t = { runOps (((queued s).take n).flatMap (dispatchOps s.inst.length)) s with
               intEnable := true, drainN := n, qTail := (s.qTail + n) % qcap s.cfg } ∧
       queued t = (queued s).drop n))

/-! ### The registry and dispatch -/

/-- R200, R355: during setup REGISTER appends an instance at rest and returns its handle; with an operand that the
rule does not allow, after setup, or with the registry full it does nothing. -/
def Obligations.RegisterAppendsAnInstanceDuringSetup : Prop :=
  ∀ (source : Source) (mask : U8) (rate : ClockRate) (s : State),
    let legal := (∃ k < 8, mask = BitVec.ofNat 8 (2 ^ k)) ∧ (source = .timer → mask = 1)
    let enabled := s.setup = true ∧ s.intEnable = false ∧ s.inst.length < s.cfg.nInst ∧ BetweenOperations s
    (legal ∧ enabled → exec (.register source .infrared mask rate) s = .next { s with
        result := .handle s.inst.length
        inst := s.inst ++ [{ source := source, protocol := .infrared, mask := mask, clockRate := rate,
                             lastLevel := mask, lastTs := 0, inWord := .idle, bitsReceived := 0, bitAccumulator := 0,
                             lastMessageTimestamp := 0, accTime := 4294967295, capturedMessage := 0,
                             capturedBitCount := 0 }] }) ∧
    (¬ (legal ∧ enabled) → exec (.register source .infrared mask rate) s = .next s)

/-- R203: DISCARD is true under each of the four conditions and under no other, and changes nothing; offering the
instance an event that it discards changes nothing either. -/
def Obligations.DiscardTestsTheFourConditions : Prop :=
  ∀ (i : Nat) (e : EdgeEvent) (s : State) (I : Instance), s.inst[i]? = some I →
    ∃ b, exec (.discard i e) s = .next { s with result := .discarded b } ∧
      (b = true ↔
        (e.tick = true ∧ I.inWord = .idle) ∨ (e.tick = true ∧ I.protocol = .infrared) ∨
        (e.tick = false ∧ e.source ≠ I.source) ∨
        (e.tick = false ∧ e.source = I.source ∧ e.level &&& I.mask = I.lastLevel)) ∧
      (b = true → exec (.dispatch i e) s = .next s)

/-- R201, R203, R207: a discarded event changes nothing; a handled one is recorded in the instance, and then the
instance's handler runs with the edge kind of the recorded levels and the converted time since the last event. -/
def Obligations.DispatchRecordsThenHandles : Prop :=
  ∀ (i : Nat) (e : EdgeEvent) (s : State) (I : Instance), s.inst[i]? = some I →
    ((e.tick = true ∨ e.source ≠ I.source ∨ e.level &&& I.mask = I.lastLevel) →
      exec (.dispatch i e) s = .next s) ∧
    (e.tick = false → e.source = I.source → e.level &&& I.mask ≠ I.lastLevel →
      ∃ kind units delta t r1 r2,
        exec (.edgekind I.lastLevel (e.level &&& I.mask) false) s = .next { s with result := r1 } ∧ r1 = .edge kind ∧
        exec (.conv I.clockRate (e.timestamp - I.lastTs)) s = .next { s with result := r2 } ∧
        r2 = .converted units delta ∧
        exec (.irEdge i kind delta units e.timestamp)
          { s with inst := s.inst.set i { I with lastLevel := e.level &&& I.mask, lastTs := e.timestamp } } = .next t ∧
        exec (.dispatch i e) s = .next t)

/-- R202: offering events to two instances in either order leaves the same instances and everything else but the
order of the outcomes. -/
def Obligations.DispatchesToTwoInstancesCommute : Prop :=
  ∀ (i j : Nat) (d e : EdgeEvent) (s : State), i ≠ j →
    ∃ t u, runOps [.dispatch i d, .dispatch j e] s = t ∧ runOps [.dispatch j e, .dispatch i d] s = u ∧
      { u with outcomes := t.outcomes } = t ∧ u.outcomes.Perm t.outcomes ∧
      ∀ k, k ≠ i → k ≠ j → t.inst[k]? = s.inst[k]?

/-- R204: the edge kind of the masked levels. That EDGEKIND completes, with some kind, for levels that show neither edge
is the model's choice (log entry 13); nothing is said of which kind. -/
def Obligations.EdgekindNamesTheTransition : Prop :=
  ∀ (old new : U8) (s : State), ∃ k k' : EdgeKind,
    exec (.edgekind old new true) s = .next { s with result := .edge k' } ∧ k' = .tick ∧
    exec (.edgekind old new false) s = .next { s with result := .edge k } ∧
    (new ≠ 0 → old = 0 → k = .rise) ∧ (new = 0 → old ≠ 0 → k = .fall) ∧
    ∀ mask : U8, oneBit mask = true → (old = 0 ∨ old = mask) → (new = 0 ∨ new = mask) → new ≠ old →
      (k = .rise ∧ old = 0) ∨ (k = .fall ∧ new = 0)

/-- R206: the four conversions, and the clamp to a signed 16-bit value. -/
def Obligations.ConvScalesFloorsAndClamps : Prop :=
  ∀ (rate : ClockRate) (d : U32) (s : State), ∃ units delta : Int,
    exec (.conv rate d) s = .next { s with result := .converted units delta } ∧
    (let sd : Int := if d.toNat < 2147483648 then d.toNat else (d.toNat : Int) - 4294967296
     (rate = .raw4us → units = sd) ∧ (rate = .ns4000 → units = 4 * sd) ∧
     (rate = .ns500 → 2 * units ≤ sd ∧ sd < 2 * units + 2) ∧
     (rate = .ns125 → 8 * units ≤ d.toNat ∧ (d.toNat : Int) < 8 * units + 8)) ∧
    (-32768 ≤ units → units ≤ 32767 → delta = units) ∧
    (units < -32768 → delta = -32768) ∧ (32767 < units → delta = 32767)

/-! ### The infrared decoder -/

/-- R238: the transition table, falling edges with `g` and rising edges with `m`, every row with the accumulation of
R230 first. -/
def Obligations.InfraredTransitionTable : Prop :=
  ∀ (i : Nat) (delta units : Int) (ts : U32) (s : State) (J : Instance), s.inst[i]? = some J →
    let I := { J with accTime := accAfter J.accTime units }
    let fallTo := fun (K : Instance) (os : List ErrorOutcome) =>
      exec (.irEdge i .fall delta units ts) s = .next (withInst i K os s)
    let riseTo := fun (K : Instance) (os : List ErrorOutcome) =>
      exec (.irEdge i .rise delta units ts) s = .next (withInst i K os s)
    let shifted := { I with
      bitsReceived := I.bitsReceived + 1
      bitAccumulator := I.bitAccumulator ||| ((if 1401 ≤ delta then 1#32 else 0#32) <<< I.bitsReceived) }
    -- falling edges
    (I.inWord = .idle ∨ 30000 ≤ delta → fallTo { I with inWord := .sawStart, bitsReceived := 0, bitAccumulator := 0 } []) ∧
    (I.inWord = .sawStart → 4000 ≤ delta → delta ≤ 5000 → fallTo { I with inWord := .inData } []) ∧
    (I.inWord = .sawStart → 2000 ≤ delta → delta ≤ 2500 → I.accTime.toNat < 262144 →
      fallTo { I with inWord := .idle, capturedMessage := 1, capturedBitCount := 1 } []) ∧
    (I.inWord = .sawStart → 2000 ≤ delta → delta ≤ 2500 → 262144 ≤ I.accTime.toNat → fallTo { I with inWord := .idle } []) ∧
    (I.inWord = .sawStart → delta < 30000 → ¬ (4000 ≤ delta ∧ delta ≤ 5000) → ¬ (2000 ≤ delta ∧ delta ≤ 2500) →
      fallTo { I with inWord := .idle } [.timingViolation]) ∧
    (I.inWord = .inData → (400 ≤ delta ∧ delta ≤ 799) ∨ (1401 ≤ delta ∧ delta ≤ 1880) → I.bitsReceived ≠ 31 →
      fallTo shifted []) ∧
    (I.inWord = .inData → (400 ≤ delta ∧ delta ≤ 799) ∨ (1401 ≤ delta ∧ delta ≤ 1880) → I.bitsReceived = 31 →
      fallTo { shifted with capturedMessage := shifted.bitAccumulator, capturedBitCount := 32,
                            lastMessageTimestamp := ts, accTime := 0, inWord := .idle } []) ∧
    (I.inWord = .inData → delta < 400 ∨ (800 ≤ delta ∧ delta ≤ 1400) ∨ (1881 ≤ delta ∧ delta < 30000) →
      fallTo { I with inWord := .idle } [.timingViolation]) ∧
    -- rising edges
    (I.inWord = .idle → riseTo I []) ∧
    (I.inWord ≠ .idle → 11000 < delta → riseTo { I with inWord := .idle } [.timingViolation]) ∧
    (I.inWord = .sawStart → delta ≤ 11000 → riseTo I []) ∧
    (I.inWord = .inData → delta < 400 ∨ 1880 < delta → riseTo { I with inWord := .idle } [.timingViolation]) ∧
    (I.inWord = .inData → 400 ≤ delta → delta ≤ 1880 → riseTo I [])

/-- R231 to R236: the falling-edge arms on `inst[i]`. The bit arm shifts the bit in at place `bits_received` and
publishes with the 32nd. -/
def Obligations.InfraredFallingEdgeArms : Prop :=
  ∀ (i : Nat) (delta : Int) (ts : U32) (s : State) (I : Instance), s.inst[i]? = some I →
    let acc := I.bitAccumulator ||| ((if 1000 < delta then 1#32 else 0#32) <<< I.bitsReceived)
    exec (.irFallStart i) s =
      .next (withInst i { I with inWord := .sawStart, bitsReceived := 0, bitAccumulator := 0 } [] s) ∧
    exec (.irFallSync i) s = .next (withInst i { I with inWord := .inData } [] s) ∧
    exec (.irFallAbort i) s = .next (withInst i { I with inWord := .idle } [.timingViolation] s) ∧
    (I.accTime.toNat < 262144 → exec (.irFallRepeat i) s =
      .next (withInst i { I with inWord := .idle, capturedMessage := 1, capturedBitCount := 1 } [] s)) ∧
    (262144 ≤ I.accTime.toNat → exec (.irFallRepeat i) s = .next (withInst i { I with inWord := .idle } [] s)) ∧
    (I.bitsReceived ≠ 31 → exec (.irFallBit i delta ts) s =
      .next (withInst i { I with bitAccumulator := acc, bitsReceived := I.bitsReceived + 1 } [] s)) ∧
    (I.bitsReceived = 31 → exec (.irFallBit i delta ts) s =
      .next (withInst i { I with bitAccumulator := acc, bitsReceived := 32, capturedMessage := acc,
                                 capturedBitCount := 32, lastMessageTimestamp := ts, accTime := 0, inWord := .idle } [] s)) ∧
    exec (.irPublish i ts) s =
      .next (withInst i { I with capturedMessage := I.bitAccumulator, capturedBitCount := 32,
                                 lastMessageTimestamp := ts, accTime := 0, inWord := .idle } [] s)

/-- R237: a rising edge aborts a frame on a mark above 11000, or in the data outside 400 to 1880, and does nothing
else. -/
def Obligations.InfraredRiseOnlyAborts : Prop :=
  ∀ (i : Nat) (delta : Int) (s : State) (I : Instance), s.inst[i]? = some I →
    let aborts := (I.inWord ≠ .idle ∧ 11000 < delta) ∨ (I.inWord = .inData ∧ (delta < 400 ∨ 1880 < delta))
    (aborts → exec (.irRise i delta) s = .next (withInst i { I with inWord := .idle } [.timingViolation] s)) ∧
    (¬ aborts → exec (.irRise i delta) s = .next s)

/-- R117: thirty-two data edges in InData publish the message whose bit k is 1 where edge k's gap is a 1. -/
def Obligations.ThirtyTwoDataEdgesPublishTheMessage : Prop :=
  ∀ (i : Nat) (s : State) (I : Instance) (m : U32) (gap units : Nat → Int) (ts : Nat → U32),
    s.inst[i]? = some I → I.inWord = .inData → I.bitsReceived = 0 → I.bitAccumulator = 0 →
    (∀ k < 32, if m.getLsbD k then 1401 ≤ gap k ∧ gap k ≤ 1880 else 400 ≤ gap k ∧ gap k ≤ 799) →
    ∃ J, runOps ((List.range 32).map fun k => .irEdge i .fall (gap k) (units k) (ts k)) s = withInst i J [] s ∧
      J = { I with capturedMessage := m, capturedBitCount := 32, bitAccumulator := m, bitsReceived := 32,
                   lastMessageTimestamp := ts 31, accTime := 0, inWord := .idle }

/-- R240, R356: between operations IRREAD returns the pending message and its bit count and clears both, or (0, 0); read
again at once it returns (0, 0). Inside a drain, a WGPOLL or a transmission it is blocked; R240 says any time, so that is
the model's reading (log entry 7). -/
def Obligations.IrreadReturnsTheMessageOnce : Prop :=
  (∀ (k : U8) (s : State), ¬ BetweenOperations s → exec (.irread k) s = .next s) ∧
  ∀ (k : U8) (s : State) (I : Instance), s.inst[k.toNat]? = some I → BetweenOperations s →
    (I.capturedBitCount = 0 → exec (.irread k) s = .next { s with result := .message 0 0 }) ∧
    (I.capturedBitCount ≠ 0 → exec (.irread k) s = .next { s with
        result := .message I.capturedMessage I.capturedBitCount
        inst := s.inst.set k.toNat { I with capturedMessage := 0, capturedBitCount := 0 } }) ∧
    (∃ t, runOps [.irread k, .irread k] s = t ∧ t.result = .message 0 0)

/-! ### The Wiegand decoder -/

/-- R275: the raw value is below 2^n and its bit n - 1 - j is the bit received j-th. -/
def Obligations.WgRawPutsTheFirstBitHighest : Prop :=
  ∀ (msg : List Bool) (s : State), ∃ v, exec (.wgRaw msg) s = .next { s with result := .raw v } ∧
    v < 2 ^ msg.length ∧ ∀ j (h : j < msg.length), v.testBit (msg.length - 1 - j) = msg[j]

/-- R276: the result by length, the masks and the shift written as remainders and a quotient. -/
def Obligations.WgCanonByLength : Prop :=
  ∀ (n v : Nat) (s : State), v < 2 ^ n →
    let returns := fun (res : WgResult) (os : List ErrorOutcome) =>
      exec (.wgCanon n v) s = .next { s with result := .wiegand res, outcomes := s.outcomes ++ os }
    let credential := fun (x : Nat) =>
      (x % 100000000 = 0 → returns .zero [.zeroCredential]) ∧
      (x % 100000000 ≠ 0 → returns (.cred (BitVec.ofNat 32 (x % 100000000))) [])
    (n = 4 → returns (.key (BitVec.ofNat 4 v)) []) ∧
    (n = 26 → credential (v % 2 ^ 25 / 2)) ∧ (n = 34 → credential (v % 2 ^ 33 / 2)) ∧
    (n = 35 → credential (v % 2 ^ 21 / 2)) ∧ (n = 36 → credential (v % 2 ^ 33 / 2)) ∧
    (n ≠ 4 → n ≠ 26 → n ≠ 34 → n ≠ 35 → n ≠ 36 → returns (.noise n) [.noiseMessage])

/-- R277: the key of a 4-bit code. -/
def Obligations.WgKeymapNamesTheKey : Prop :=
  ∀ (code : U4) (s : State), ∃ k, exec (.wgKeymap code) s = .next { s with result := .keyOf k } ∧
    (∀ d : Fin 10, code.toNat = d.val → k = some (.digit d)) ∧ (code = 10 → k = some .star) ∧
    (code = 11 → k = some .hash) ∧ (12 ≤ code.toNat → k = none)

/-- R278: which encoder a result is forwarded to, between operations. -/
def Obligations.WgForwardByTranslationOption : Prop :=
  ∀ s : State, BetweenOperations s →
    (∀ res, s.xlateOption = .none → exec (.wgForward res) s = .next s) ∧
    (∀ r, s.xlateOption = .fmt32 → ∃ t, exec (.wgForward (.cred r)) s = .next t ∧ exec (.tx32 r) s = .next t) ∧
    (∀ code, s.xlateOption = .fmt32 → exec (.wgForward (.key code)) s = .next s) ∧
    (∀ r, s.xlateOption = .clockData → ∃ t, exec (.wgForward (.cred r)) s = .next t ∧ exec (.txcred r) s = .next t) ∧
    (∀ (code : U4) (d : Fin 10), s.xlateOption = .clockData → code.toNat = d.val →
      ∃ t, exec (.wgForward (.key code)) s = .next t ∧ exec (.txkey (.digit d)) s = .next t) ∧
    (s.xlateOption = .clockData →
      (∃ t, exec (.wgForward (.key 10)) s = .next t ∧ exec (.txkey .star) s = .next t) ∧
      (∃ t, exec (.wgForward (.key 11)) s = .next t ∧ exec (.txkey .hash) s = .next t) ∧
      ∀ code : U4, 12 ≤ code.toNat → exec (.wgForward (.key code)) s = .next s) ∧
    (∀ n, exec (.wgForward (.noise n)) s = .next s) ∧ exec (.wgForward .zero) s = .next s ∧
    exec (.wgForward .nothing) s = .next s

/-- R273: WGPOLL takes a message once a bit has come and 20 ms have passed since the last, canonicalises its raw
value and forwards the result; otherwise it leaves everything but `int_enable`. -/
def Obligations.WgpollTakesAMessageAfterTheTimeout : Prop :=
  ∀ s : State,
    let elapsed := (timestampAt s s.hardwareCounter - s.wgLastTs).toNat
    let taken := { s with wgBits := [], wgDiagLen := BitVec.ofNat 8 s.wgBits.length, wgDiagTs := s.wgLastTs,
                          intEnable := true }
    (BetweenOperations s → s.wgBits = [] ∨ elapsed < timeoutTicks s.cfg.tick →
      exec .wgpoll s = .next { s with intEnable := true, result := .wiegand .nothing }) ∧
    (BetweenOperations s → s.wgBits ≠ [] → timeoutTicks s.cfg.tick ≤ elapsed →
      ∃ v res os t, exec (.wgRaw s.wgBits) taken = .next { taken with result := .raw v } ∧
        exec (.wgCanon s.wgBits.length v) taken =
          .next { taken with result := .wiegand res, outcomes := s.outcomes ++ os } ∧
        exec (.wgForward res) { taken with result := .wiegand res, outcomes := s.outcomes ++ os } = .next t ∧
        t.result = .wiegand res ∧ exec .wgpoll s = .next t) ∧
    (¬ BetweenOperations s → exec .wgpoll s = .next s)

/-- R279: after 26 bits and the timeout, WGPOLL returns the credential of the inner 24 bits, or Zero. -/
def Obligations.TwentySixBitsGiveTheCredential : Prop :=
  ∀ (s : State) (v : Nat), BetweenOperations s → s.wgBits.length = 26 →
    (∀ j (h : j < s.wgBits.length), v.testBit (25 - j) = s.wgBits[j]) → v < 2 ^ 26 →
    timeoutTicks s.cfg.tick ≤ (timestampAt s s.hardwareCounter - s.wgLastTs).toNat →
    ∃ t, exec .wgpoll s = .next t ∧ t.wgBits = [] ∧ t.wgDiagLen = 26 ∧ t.wgDiagTs = s.wgLastTs ∧
      t.result = .wiegand (if v % 2 ^ 25 / 2 % 100000000 = 0 then .zero
                           else .cred (BitVec.ofNat 32 (v % 2 ^ 25 / 2 % 100000000)))

/-! ### The output encoders -/

/-- R301, R302: Emit drives its line and records that. Wait records its hold and lets the nominal ticks pass; the counts
of the two holds at the three periods. A hold that is no whole number of ticks also completes, with a number of ticks
that nothing is said of (log entry 14). -/
def Obligations.EmitDrivesItsLineAndWaitHolds : Prop :=
  (∀ (lvl : Bool) (s : State),
    exec (.emit .tx0 lvl) s = .next { s with tx0 := lvl, trace := s.trace ++ [.emit .tx0 lvl] } ∧
    exec (.emit .tx1 lvl) s = .next { s with tx1 := lvl, trace := s.trace ++ [.emit .tx1 lvl] } ∧
    exec (.emit .txClk lvl) s = .next { s with txClk := lvl, trace := s.trace ++ [.emit .txClk lvl] } ∧
    exec (.emit .txData lvl) s = .next { s with txData := lvl, trace := s.trace ++ [.emit .txData lvl] }) ∧
  (∀ (us n : Nat) (s : State), us * 1000 = n * periodNs s.cfg.tick →
    exec (.wait us) s = .next (oneTick^[n] { s with trace := s.trace ++ [.wait us] })) ∧
  (∀ p : TickPeriod, 40 * 1000 = ticks40 p * periodNs p ∧ 200 * 1000 = ticks200 p * periodNs p) ∧
  (∀ (us : Nat) (s : State), ∃ n, exec (.wait us) s = .next (oneTick^[n] { s with trace := s.trace ++ [.wait us] }))

/-- R306, R310: one bit of the 32-bit format, and one bit cell of the clock/data format. -/
def Obligations.OneBitIsOnePulseOrOneCell : Prop :=
  ∀ (b : Bool) (s : State),
    exec (.tx32Bit b) s = .next { oneTick^[ticks40 s.cfg.tick + ticks200 s.cfg.tick] s with
      trace := s.trace ++ pulseItems b, tx0 := s.tx0 || !b, tx1 := s.tx1 || b } ∧
    exec (.cdBit b) s = .next { oneTick^[2 * ticks200 s.cfg.tick] s with
      trace := s.trace ++ cellItems b, txClk := true, txData := !b }

/-- R311, R127: a word is five cells, an odd number of them ones. -/
def Obligations.CdWordSendsFiveCellsOfOddParity : Prop :=
  ∀ (w : U4) (s : State),
    exec (.cdWord w) s = .next { oneTick^[10 * ticks200 s.cfg.tick] s with
      trace := s.trace ++ (wordCells w).flatMap cellItems, txClk := true,
      txData := w.getLsbD 0 ^^ w.getLsbD 1 ^^ w.getLsbD 2 ^^ w.getLsbD 3 } ∧
    (wordCells w).count true % 2 = 1

/-- R312, R128: a frame of n words is 20 + 5(n + 1) cells, and leaves clock and data high. -/
def Obligations.CdFrameFramesTheWords : Prop :=
  ∀ (words : List U4) (s : State),
    exec (.cdFrame words) s = .next { oneTick^[(20 + 5 * (words.length + 1)) * (2 * ticks200 s.cfg.tick)] s with
      trace := s.trace ++ (frameCells words).flatMap cellItems, txClk := true, txData := true } ∧
    (frameCells words).length = 20 + 5 * (words.length + 1)

/-- R305: TX32 sends the 32 bits, bit 31 first, and leaves interrupts enabled; a zero is not sent. -/
def Obligations.Tx32SendsTheBitsMostSignificantFirst : Prop :=
  ∀ (v : U32) (s : State),
    (BetweenOperations s → s.tx0 = true → s.tx1 = true → v ≠ 0 →
      exec (.tx32 v) s = .next { oneTick^[32 * (ticks40 s.cfg.tick + ticks200 s.cfg.tick)] s with
        intEnable := true, trace := s.trace ++ (List.range 32).flatMap fun j => pulseItems (v.getLsbD (31 - j)) }) ∧
    (BetweenOperations s → v = 0 →
      exec (.tx32 v) s = .next { s with outcomes := s.outcomes ++ [.zeroCredential] }) ∧
    (¬ BetweenOperations s → exec (.tx32 v) s = .next s)

/-- R315: TXCRED sends the eight digits of the credential between the sentinels; a zero is not sent. -/
def Obligations.TxcredSendsTheEightDigits : Prop :=
  ∀ (v : U32) (s : State),
    (BetweenOperations s → v.toNat % 100000000 ≠ 0 →
      exec (.txcred v) s = .next { oneTick^[75 * (2 * ticks200 s.cfg.tick)] s with
        trace := s.trace ++ (frameCells (credentialWords s.cfg (v.toNat % 100000000))).flatMap cellItems,
        txClk := true, txData := true }) ∧
    (BetweenOperations s → v.toNat % 100000000 = 0 →
      exec (.txcred v) s = .next { s with outcomes := s.outcomes ++ [.zeroCredential] }) ∧
    (¬ BetweenOperations s → exec (.txcred v) s = .next s)

/-- R318, R130, R131: between operations TXKEY sends one frame of six words, the same layout for every key: the key's
two slots at the layout's two places, and at each other place the sentinel that the layout fixes there. The layout and
the sentinels are OPEN parameters, whatever they are (log entry 11); that the slots stand at two different places, and
that every other word is one of the three sentinels, is the model's reading (log entry 12). -/
def Obligations.TxkeySendsSixWordsWithTheTwoSlots : Prop :=
  ∀ (c : Key) (s : State),
    let L := s.cfg.keyLayout
    let words := keypressWords s.cfg c
    (BetweenOperations s → exec (.txkey c) s = .next { oneTick^[55 * (2 * ticks200 s.cfg.tick)] s with
        trace := s.trace ++ (frameCells words).flatMap cellItems, txClk := true, txData := true }) ∧
    (words.length = 6 ∧ slot2At L < 6 ∧ slot2At L ≠ L.slot1.val ∧
      words[L.slot1.val]? = some (BitVec.ofNat 4 (keySlots c).1) ∧
      words[slot2At L]? = some (BitVec.ofNat 4 (keySlots c).2) ∧
      ∀ j : Fin 6, j ≠ L.slot1 → j.val ≠ slot2At L → words[j.val]? = some (sentinelWord s.cfg (L.fill.get j))) ∧
    (¬ BetweenOperations s → exec (.txkey c) s = .next s)

/-- The 32-bit format read back by the Wiegand decoder's raw stage is the value sent (S3 of the test vectors). -/
def Obligations.Tx32ReadsBackThroughWgRaw : Prop :=
  ∀ (v : U32) (s : State), BetweenOperations s → v ≠ 0 →
    ∃ t items, exec (.tx32 v) s = .next t ∧ t.trace = s.trace ++ items ∧
      exec (.wgRaw (pulsedLines items)) t = .next { t with result := .raw v.toNat }

/-! ### Composite operations, ownership and invariants -/

/-- R79, R162, R273, R300: a composite operation taken micro-step by micro-step, with nothing in between, ends in the
state of the operation issued whole. WGPOLL and the transmissions are started and resumed; DRAIN is the words
DRAIN_BEGIN, DRAIN_STEP as long as it returns More and once more, and DRAIN_END, which leave what DRAIN leaves but for the
returned value. The grain: a micro-step appends at most one item to the trace; a transmission performs the first of
its micro-steps when it is started, and each `resume` performs the next one; starting WGPOLL is the take alone, and its
`resume` canonicalises the message and starts what WG_FORWARD calls. No other operation has micro-steps, and inside a
composite operation none starts. The cut into micro-steps and the fields that hold them are the model's (log entries 6,
7 and 17). -/
def Obligations.MicroStepsMakeTheWholeOperation : Prop :=
  (∀ (i : Instr) (s t u : State), BetweenOperations s → i ≠ .drain → startOp i s = some u → exec i s = .next t →
    ∃ k, resume^[k] u = t) ∧
  (∀ s : State, BetweenOperations s → ∃ t k,
    exec .drain s = .next t ∧
    (∀ j < k, (runOps (.drainBegin :: List.replicate (j + 1) .drainStep) s).result = .more) ∧
    (runOps (.drainBegin :: List.replicate (k + 1) .drainStep) s).result = .done ∧
    runOps (.drainBegin :: List.replicate (k + 1) .drainStep ++ [.drainEnd]) s = { t with result := .done } ∧
    startOp .drain s = some { runOps [.drainBegin] s with result := s.result }) ∧
  (∀ (i : Instr) (s : State),
    (startOp i s = none ↔ i ≠ .drain ∧ i ≠ .wgpoll ∧ ∀ v c, i ≠ .tx32 v ∧ i ≠ .txcred v ∧ i ≠ .txkey c) ∧
    (¬ BetweenOperations s → ∀ u, startOp i s = some u → u = s) ∧
    ∀ u, startOp i s = some u ∨ resume s = u → ∃ items, items.length ≤ 1 ∧ u.trace = s.trace ++ items) ∧
  (∀ (v : U32) (c : Key) (s : State), BetweenOperations s →
    startOp (.tx32 v) s = some (nextMicroStep (tx32MicroSteps v) s) ∧
    startOp (.txcred v) s = some (nextMicroStep (txcredMicroSteps s.cfg v) s) ∧
    startOp (.txkey c) s = some (nextMicroStep (frameMicroSteps (keypressWords s.cfg c)) s)) ∧
  (∀ s : State, s.wgTaken = none → resume s = nextMicroStep s.txRest s) ∧
  (∀ s : State, BetweenOperations s →
    let elapsed := (timestampAt s s.hardwareCounter - s.wgLastTs).toNat
    (s.wgBits = [] ∨ elapsed < timeoutTicks s.cfg.tick →
      startOp .wgpoll s = some { s with intEnable := true, result := .wiegand .nothing }) ∧
    (s.wgBits ≠ [] → timeoutTicks s.cfg.tick ≤ elapsed →
      startOp .wgpoll s = some { s with wgBits := [], wgDiagLen := BitVec.ofNat 8 s.wgBits.length,
                                        wgDiagTs := s.wgLastTs, intEnable := true, wgTaken := some s.wgBits })) ∧
  ∀ (s : State) (msg : List Bool), s.wgTaken = some msg → s.txRest = [] → s.drainLock = false →
    ∃ v res os, exec (.wgRaw msg) s = .next { s with result := .raw v } ∧
      exec (.wgCanon msg.length v) s = .next { s with result := .wiegand res, outcomes := s.outcomes ++ os } ∧
      let c := { s with wgTaken := none, result := .wiegand res, outcomes := s.outcomes ++ os }
      resume s = ((forwardedTo s.xlateOption res).bind fun i => startOp i c).getD c

/-- R52: the interrupt-owned fields are written by no polling operation but RESET and by no environment operation; the
polling-owned fields by no interrupt service and no environment operation. The same of the micro-steps of the polling
operations (R79): of the first and of each next one, whose cut is the model's (log entries 6 and 17). -/
def Obligations.ContextsWriteOnlyWhatTheyOwn : Prop :=
  (∀ (i : Instr) (s t : State), exec i s = .next t ∨ startOp i s = some t →
    ((i.agent = .poll ∧ i ≠ .reset) ∨ i.agent = .env → KeepsInterruptOwned s t) ∧
    (i.agent = .irq ∨ i.agent = .env → KeepsPollingOwned s t)) ∧
  ∀ s : State, KeepsInterruptOwned s (resume s)

/-- R24: every step keeps the clock invariant. -/
def Obligations.EveryStepKeepsTheClockInvariant : Prop :=
  ∀ s t : State, ClockInv s → step s = .next t → ClockInv t

/-- Every step keeps the queue's invariant: masked indices, the drain bound, the canonical slot space, legal records. -/
def Obligations.EveryStepKeepsTheQueueInvariant : Prop :=
  ∀ s t : State, QueueInv s → step s = .next t → QueueInv t

/-- R239: every step keeps the invariants of every infrared instance. -/
def Obligations.EveryStepKeepsTheInfraredInvariants : Prop :=
  ∀ s t : State, (∀ I ∈ s.inst, IrInv I) → step s = .next t → ∀ I ∈ t.inst, IrInv I

/-- Every step keeps the registry's invariant and leaves the parameters as they are. -/
def Obligations.EveryStepKeepsTheRegistryInvariant : Prop :=
  ∀ s t : State, RegistryInv s → step s = .next t → RegistryInv t ∧ t.cfg = s.cfg

/-- R41, R44, R381: every step keeps the Wiegand buffer within its capacity, and after setup the translation option as it
is. During setup the configuration provider's integer fixes the option that it names, and changes nothing else; one that
names none changes nothing (the coding is OPEN; log entry 15). -/
def Obligations.EveryStepKeepsTheWiegandInvariant : Prop :=
  (∀ s t : State, WiegandInv s → step s = .next t →
    WiegandInv t ∧ (s.setup = false → t.xlateOption = s.xlateOption)) ∧
  ∀ (s : State) (code : Int) (rest : List Stimulus), s.stim = .configure code :: rest →
    (s.setup = true → step s = .next { s with stim := rest, xlateOption := (Config.xlateCode code).getD s.xlateOption }) ∧
    (s.setup = false → step s = .next { s with stim := rest })

/-- R300, R305: every step keeps the polling context's invariant: no transmission inside a drain, TX32 masked to its end,
all lines high whenever no transmission is going on. TX32 of a non-zero value starts with interrupts masked and exactly
its 32 pulses and the unmasking to come, so it is masked from before its first bit until after its last; the cut into
micro-steps is the model's (log entries 6 and 17). -/
def Obligations.EveryStepKeepsThePollingInvariant : Prop :=
  (∀ s t : State, PollInv s → step s = .next t → PollInv t ∧ (t.txRest = [] → LinesHigh t)) ∧
  ∀ (v : U32) (s : State), BetweenOperations s → v ≠ 0 → startOp (.tx32 v) s = some { s with
    intEnable := false, txRest := pulseMicroSteps v ++ [.setIntEnable true] }

/-- The invariants hold after reset. -/
def Obligations.ResetMeetsTheInvariants : Prop :=
  ClockInv State.reset ∧ QueueInv State.reset ∧ (∀ I ∈ State.reset.inst, IrInv I) ∧ RegistryInv State.reset ∧
  WiegandInv State.reset ∧ PollInv State.reset
end

