-- ==== Sys2Proof/Laws/Memory.lean ====
section
/-! SUPPORT. The slot space: what a read gives after a write, and that every operation keeps the canonical form. -/

namespace Sys2Proof.Machine

theorem Memory.read_erase_of_ne (m : Memory) {k j : Nat} (h : j ≠ k) : (m.erase k).read j = m.read j := by
  induction m with
  | nil => rfl
  | cons c m ih =>
    obtain ⟨a, e⟩ := c
    by_cases hk : a = k
    · subst hk; simp [Memory.erase, Memory.read, Ne.symm h]
    · simp [Memory.erase, hk, Memory.read, ih]

theorem Memory.read_insert_of_ne (m : Memory) {k j : Nat} (h : j ≠ k) (e : EdgeEvent) :
    (m.insert k e).read j = m.read j := by
  induction m with
  | nil => simp [Memory.insert, Memory.read, Ne.symm h]
  | cons c m ih =>
    obtain ⟨a, f⟩ := c
    unfold Memory.insert
    split
    · simp [Memory.read, Ne.symm h]
    · split
      · next hk => subst hk; simp [Memory.read, Ne.symm h]
      · simp [Memory.read, ih]

theorem Memory.read_insert_self (m : Memory) (k : Nat) (e : EdgeEvent) : (m.insert k e).read k = e := by
  induction m with
  | nil => simp [Memory.insert, Memory.read]
  | cons c m ih =>
    obtain ⟨a, f⟩ := c
    unfold Memory.insert
    split
    · simp [Memory.read]
    · split
      · simp [Memory.read]
      · next h => simp [Memory.read, h, ih]

/-- An address that the list does not hold reads as the blank record. -/
theorem Memory.read_of_not_mem (m : Memory) (k : Nat) (h : k ∉ m.map Prod.fst) : m.read k = blankEvent := by
  induction m with
  | nil => rfl
  | cons c m ih =>
    obtain ⟨a, e⟩ := c
    simp only [List.map_cons, List.mem_cons, not_or] at h
    simp [Memory.read, Ne.symm h.1, ih h.2]

theorem Memory.mem_erase {m : Memory} {k : Nat} {c : Nat × EdgeEvent} (h : c ∈ m.erase k) : c ∈ m := by
  induction m with
  | nil => exact h
  | cons d m ih =>
    obtain ⟨a, e⟩ := d
    unfold Memory.erase at h
    split at h
    · exact List.mem_cons_of_mem _ h
    · rcases List.mem_cons.1 h with rfl | h'
      · exact List.mem_cons_self
      · exact List.mem_cons_of_mem _ (ih h')

theorem Memory.mem_insert {m : Memory} {k : Nat} {e : EdgeEvent} {c : Nat × EdgeEvent} (h : c ∈ m.insert k e) :
    c = (k, e) ∨ c ∈ m := by
  induction m with
  | nil => simpa [Memory.insert] using h
  | cons d m ih =>
    obtain ⟨a, f⟩ := d
    unfold Memory.insert at h
    split at h
    · simpa using h
    · split at h
      · rcases List.mem_cons.1 h with rfl | h'
        · exact .inl rfl
        · exact .inr (List.mem_cons_of_mem _ h')
      · rcases List.mem_cons.1 h with rfl | h'
        · exact .inr List.mem_cons_self
        · exact (ih h').imp id (List.mem_cons_of_mem _)

theorem Memory.wf_erase {m : Memory} (k : Nat) (h : m.wf) : (m.erase k).wf := by
  refine ⟨?_, fun c hc => h.2 c (Memory.mem_erase hc)⟩
  induction m with
  | nil => exact h.1
  | cons d m ih =>
    obtain ⟨a, e⟩ := d
    have h1 := List.pairwise_cons.1 h.1
    have hm : Memory.wf m := ⟨h1.2, fun c hc => h.2 c (List.mem_cons_of_mem _ hc)⟩
    unfold Memory.erase
    split
    · exact h1.2
    · refine List.pairwise_cons.2 ⟨fun x hx => ?_, ih hm⟩
      obtain ⟨c, hc, rfl⟩ := List.mem_map.1 hx
      exact h1.1 _ (List.mem_map_of_mem (Memory.mem_erase hc))

theorem Memory.wf_insert {m : Memory} (k : Nat) {e : EdgeEvent} (he : e ≠ blankEvent) (h : m.wf) :
    (m.insert k e).wf := by
  refine ⟨?_, fun c hc => (Memory.mem_insert hc).elim (fun hk => by rw [hk]; exact he) (h.2 c)⟩
  induction m with
  | nil => simp [Memory.insert]
  | cons d m ih =>
    obtain ⟨a, f⟩ := d
    have h1 := List.pairwise_cons.1 h.1
    have hm : Memory.wf m := ⟨h1.2, fun c hc => h.2 c (List.mem_cons_of_mem _ hc)⟩
    unfold Memory.insert
    split
    · next hk =>
      refine List.pairwise_cons.2 ⟨fun x hx => ?_, h.1⟩
      rcases List.mem_cons.1 hx with rfl | hx'
      · exact hk
      · exact lt_trans hk (h1.1 x hx')
    · split
      · next hk => subst hk; exact h.1
      · next h2 h3 =>
        refine List.pairwise_cons.2 ⟨fun x hx => ?_, ih hm⟩
        obtain ⟨c, hc, rfl⟩ := List.mem_map.1 hx
        rcases Memory.mem_insert hc with rfl | hc'
        · show a < k; omega
        · exact h1.1 _ (List.mem_map_of_mem hc')

/-- Every write keeps the canonical form. -/
theorem Memory.wf_write {m : Memory} (k : Nat) (e : EdgeEvent) (h : m.wf) : (m.write k e).wf := by
  unfold Memory.write
  split
  · exact Memory.wf_erase k h
  · next he => exact Memory.wf_insert k he h

/-- A write leaves every other slot alone. -/
theorem Memory.read_write_of_ne (m : Memory) {k j : Nat} (h : j ≠ k) (e : EdgeEvent) :
    (m.write k e).read j = m.read j := by
  unfold Memory.write
  split
  · exact Memory.read_erase_of_ne m h
  · exact Memory.read_insert_of_ne m h e

theorem Memory.read_erase_self {m : Memory} (k : Nat) (h : m.wf) : (m.erase k).read k = blankEvent := by
  induction m with
  | nil => rfl
  | cons d m ih =>
    obtain ⟨a, e⟩ := d
    have h1 := List.pairwise_cons.1 h.1
    unfold Memory.erase
    split
    · next hk =>
      subst hk
      exact Memory.read_of_not_mem _ _ fun hm => lt_irrefl _ (h1.1 _ hm)
    · next hk =>
      simp only [Memory.read, hk, if_false]
      exact ih ⟨h1.2, fun c hc => h.2 c (List.mem_cons_of_mem _ hc)⟩

/-- A read after a write to the same slot gives the record written. -/
theorem Memory.read_write_self {m : Memory} (k : Nat) (e : EdgeEvent) (h : m.wf) : (m.write k e).read k = e := by
  unfold Memory.write
  split
  · next he => rw [he, Memory.read_erase_self k h]
  · exact Memory.read_insert_self m k e

/-- A write adds no address but its own. -/
theorem Memory.mem_write {m : Memory} {k : Nat} {e : EdgeEvent} {c : Nat × EdgeEvent} (h : c ∈ m.write k e) :
    c = (k, e) ∨ c ∈ m := by
  unfold Memory.write at h
  split at h
  · exact .inr (Memory.mem_erase h)
  · exact Memory.mem_insert h

/-- Two canonical memories that read alike are equal. -/
theorem Memory.ext_of_read {m n : Memory} (hm : m.wf) (hn : n.wf) (h : ∀ k, m.read k = n.read k) : m = n := by
  have read_mem : ∀ {m : Memory}, m.wf → ∀ {a e}, (a, e) ∈ m → m.read a = e := by
    intro m
    induction m with
    | nil => intro _ a e h; cases h
    | cons d m ih =>
      obtain ⟨b, f⟩ := d
      intro hw a e h
      have h1 := List.pairwise_cons.1 hw.1
      rcases List.mem_cons.1 h with h | h
      · cases h; simp [Memory.read]
      · have hlt : b < a := h1.1 _ (List.mem_map_of_mem (f := Prod.fst) h)
        simp only [Memory.read, hlt.ne, if_false]
        exact ih ⟨h1.2, fun c hc => hw.2 c (List.mem_cons_of_mem _ hc)⟩ h
  have mem_iff : ∀ {m : Memory}, m.wf → ∀ a e, (a, e) ∈ m ↔ m.read a = e ∧ e ≠ blankEvent := by
    intro m hw a e
    refine ⟨fun h => ⟨read_mem hw h, hw.2 _ h⟩, fun ⟨h1, h2⟩ => ?_⟩
    by_contra hn'
    by_cases ha : a ∈ m.map Prod.fst
    · obtain ⟨⟨a', e'⟩, hc, rfl⟩ := List.mem_map.1 ha
      have h3 := read_mem hw hc
      rw [h1] at h3
      exact hn' (h3 ▸ hc)
    · exact h2 (h1 ▸ Memory.read_of_not_mem m a ha)
  have sorted : ∀ {m : Memory}, m.wf → m.Pairwise (fun c d => c.1 < d.1) := fun hw => List.pairwise_map.1 hw.1
  have hperm : m.Perm n := by
    refine (List.perm_ext_iff_of_nodup ?_ ?_).2 fun ⟨a, e⟩ => by rw [mem_iff hm, mem_iff hn, h]
    · exact (sorted hm).imp fun hlt heq => by rw [heq] at hlt; exact lt_irrefl _ hlt
    · exact (sorted hn).imp fun hlt heq => by rw [heq] at hlt; exact lt_irrefl _ hlt
  exact hperm.eq_of_pairwise (fun a b _ _ h1 h2 => absurd h1 (lt_asymm h2)) (sorted hm) (sorted hn)

/-- The memory after reset is in canonical form. -/
theorem reset_slots_wf : State.reset.slots.wf := by decide

end Sys2Proof.Machine
end

