-- ==== Sys2Proof/Laws/State.lean ====
section
/-! SUPPORT. One lemma per field per named update of the state, so that no proof unfolds a record update. -/

namespace Sys2Proof.Machine

variable (s : State)

/-! ### `recordAll` -/

@[simp] theorem recordAll_cfg (os : List ErrorOutcome) : (recordAll os s).cfg = s.cfg := rfl
@[simp] theorem recordAll_hardwareCounter (os : List ErrorOutcome) : (recordAll os s).hardwareCounter = s.hardwareCounter := rfl
@[simp] theorem recordAll_ovfFlag (os : List ErrorOutcome) : (recordAll os s).ovfFlag = s.ovfFlag := rfl
@[simp] theorem recordAll_overflowCount (os : List ErrorOutcome) : (recordAll os s).overflowCount = s.overflowCount := rfl
@[simp] theorem recordAll_T (os : List ErrorOutcome) : (recordAll os s).T = s.T := rfl
@[simp] theorem recordAll_clockLost (os : List ErrorOutcome) : (recordAll os s).clockLost = s.clockLost := rfl
@[simp] theorem recordAll_intEnable (os : List ErrorOutcome) : (recordAll os s).intEnable = s.intEnable := rfl
@[simp] theorem recordAll_pendCapt (os : List ErrorOutcome) : (recordAll os s).pendCapt = s.pendCapt := rfl
@[simp] theorem recordAll_pendPca (os : List ErrorOutcome) : (recordAll os s).pendPca = s.pendPca := rfl
@[simp] theorem recordAll_pendWg0 (os : List ErrorOutcome) : (recordAll os s).pendWg0 = s.pendWg0 := rfl
@[simp] theorem recordAll_pendWg1 (os : List ErrorOutcome) : (recordAll os s).pendWg1 = s.pendWg1 := rfl
@[simp] theorem recordAll_icr (os : List ErrorOutcome) : (recordAll os s).icr = s.icr := rfl
@[simp] theorem recordAll_capIn (os : List ErrorOutcome) : (recordAll os s).capIn = s.capIn := rfl
@[simp] theorem recordAll_pgaIn (os : List ErrorOutcome) : (recordAll os s).pgaIn = s.pgaIn := rfl
@[simp] theorem recordAll_slots (os : List ErrorOutcome) : (recordAll os s).slots = s.slots := rfl
@[simp] theorem recordAll_qHead (os : List ErrorOutcome) : (recordAll os s).qHead = s.qHead := rfl
@[simp] theorem recordAll_qTail (os : List ErrorOutcome) : (recordAll os s).qTail = s.qTail := rfl
@[simp] theorem recordAll_drainLock (os : List ErrorOutcome) : (recordAll os s).drainLock = s.drainLock := rfl
@[simp] theorem recordAll_drainN (os : List ErrorOutcome) : (recordAll os s).drainN = s.drainN := rfl
@[simp] theorem recordAll_inst (os : List ErrorOutcome) : (recordAll os s).inst = s.inst := rfl
@[simp] theorem recordAll_wgBits (os : List ErrorOutcome) : (recordAll os s).wgBits = s.wgBits := rfl
@[simp] theorem recordAll_wgLastTs (os : List ErrorOutcome) : (recordAll os s).wgLastTs = s.wgLastTs := rfl
@[simp] theorem recordAll_wgDiagLen (os : List ErrorOutcome) : (recordAll os s).wgDiagLen = s.wgDiagLen := rfl
@[simp] theorem recordAll_wgDiagTs (os : List ErrorOutcome) : (recordAll os s).wgDiagTs = s.wgDiagTs := rfl
@[simp] theorem recordAll_xlateOption (os : List ErrorOutcome) : (recordAll os s).xlateOption = s.xlateOption := rfl
@[simp] theorem recordAll_tx0 (os : List ErrorOutcome) : (recordAll os s).tx0 = s.tx0 := rfl
@[simp] theorem recordAll_tx1 (os : List ErrorOutcome) : (recordAll os s).tx1 = s.tx1 := rfl
@[simp] theorem recordAll_txClk (os : List ErrorOutcome) : (recordAll os s).txClk = s.txClk := rfl
@[simp] theorem recordAll_txData (os : List ErrorOutcome) : (recordAll os s).txData = s.txData := rfl
@[simp] theorem recordAll_trace (os : List ErrorOutcome) : (recordAll os s).trace = s.trace := rfl
@[simp] theorem recordAll_setup (os : List ErrorOutcome) : (recordAll os s).setup = s.setup := rfl
@[simp] theorem recordAll_wgTaken (os : List ErrorOutcome) : (recordAll os s).wgTaken = s.wgTaken := rfl
@[simp] theorem recordAll_txRest (os : List ErrorOutcome) : (recordAll os s).txRest = s.txRest := rfl
@[simp] theorem recordAll_result (os : List ErrorOutcome) : (recordAll os s).result = s.result := rfl
@[simp] theorem recordAll_outcomes (os : List ErrorOutcome) : (recordAll os s).outcomes = s.outcomes ++ os := rfl
@[simp] theorem recordAll_stim (os : List ErrorOutcome) : (recordAll os s).stim = s.stim := rfl

/-! ### `give` -/

@[simp] theorem give_cfg (r : Result) : (give r s).cfg = s.cfg := rfl
@[simp] theorem give_hardwareCounter (r : Result) : (give r s).hardwareCounter = s.hardwareCounter := rfl
@[simp] theorem give_ovfFlag (r : Result) : (give r s).ovfFlag = s.ovfFlag := rfl
@[simp] theorem give_overflowCount (r : Result) : (give r s).overflowCount = s.overflowCount := rfl
@[simp] theorem give_T (r : Result) : (give r s).T = s.T := rfl
@[simp] theorem give_clockLost (r : Result) : (give r s).clockLost = s.clockLost := rfl
@[simp] theorem give_intEnable (r : Result) : (give r s).intEnable = s.intEnable := rfl
@[simp] theorem give_pendCapt (r : Result) : (give r s).pendCapt = s.pendCapt := rfl
@[simp] theorem give_pendPca (r : Result) : (give r s).pendPca = s.pendPca := rfl
@[simp] theorem give_pendWg0 (r : Result) : (give r s).pendWg0 = s.pendWg0 := rfl
@[simp] theorem give_pendWg1 (r : Result) : (give r s).pendWg1 = s.pendWg1 := rfl
@[simp] theorem give_icr (r : Result) : (give r s).icr = s.icr := rfl
@[simp] theorem give_capIn (r : Result) : (give r s).capIn = s.capIn := rfl
@[simp] theorem give_pgaIn (r : Result) : (give r s).pgaIn = s.pgaIn := rfl
@[simp] theorem give_slots (r : Result) : (give r s).slots = s.slots := rfl
@[simp] theorem give_qHead (r : Result) : (give r s).qHead = s.qHead := rfl
@[simp] theorem give_qTail (r : Result) : (give r s).qTail = s.qTail := rfl
@[simp] theorem give_drainLock (r : Result) : (give r s).drainLock = s.drainLock := rfl
@[simp] theorem give_drainN (r : Result) : (give r s).drainN = s.drainN := rfl
@[simp] theorem give_inst (r : Result) : (give r s).inst = s.inst := rfl
@[simp] theorem give_wgBits (r : Result) : (give r s).wgBits = s.wgBits := rfl
@[simp] theorem give_wgLastTs (r : Result) : (give r s).wgLastTs = s.wgLastTs := rfl
@[simp] theorem give_wgDiagLen (r : Result) : (give r s).wgDiagLen = s.wgDiagLen := rfl
@[simp] theorem give_wgDiagTs (r : Result) : (give r s).wgDiagTs = s.wgDiagTs := rfl
@[simp] theorem give_xlateOption (r : Result) : (give r s).xlateOption = s.xlateOption := rfl
@[simp] theorem give_tx0 (r : Result) : (give r s).tx0 = s.tx0 := rfl
@[simp] theorem give_tx1 (r : Result) : (give r s).tx1 = s.tx1 := rfl
@[simp] theorem give_txClk (r : Result) : (give r s).txClk = s.txClk := rfl
@[simp] theorem give_txData (r : Result) : (give r s).txData = s.txData := rfl
@[simp] theorem give_trace (r : Result) : (give r s).trace = s.trace := rfl
@[simp] theorem give_setup (r : Result) : (give r s).setup = s.setup := rfl
@[simp] theorem give_wgTaken (r : Result) : (give r s).wgTaken = s.wgTaken := rfl
@[simp] theorem give_txRest (r : Result) : (give r s).txRest = s.txRest := rfl
@[simp] theorem give_result (r : Result) : (give r s).result = r := rfl
@[simp] theorem give_outcomes (r : Result) : (give r s).outcomes = s.outcomes := rfl
@[simp] theorem give_stim (r : Result) : (give r s).stim = s.stim := rfl

/-! ### `setIntEnable` -/

@[simp] theorem setIntEnable_cfg (b : Bool) : (setIntEnable b s).cfg = s.cfg := rfl
@[simp] theorem setIntEnable_hardwareCounter (b : Bool) : (setIntEnable b s).hardwareCounter = s.hardwareCounter := rfl
@[simp] theorem setIntEnable_ovfFlag (b : Bool) : (setIntEnable b s).ovfFlag = s.ovfFlag := rfl
@[simp] theorem setIntEnable_overflowCount (b : Bool) : (setIntEnable b s).overflowCount = s.overflowCount := rfl
@[simp] theorem setIntEnable_T (b : Bool) : (setIntEnable b s).T = s.T := rfl
@[simp] theorem setIntEnable_clockLost (b : Bool) : (setIntEnable b s).clockLost = s.clockLost := rfl
@[simp] theorem setIntEnable_intEnable (b : Bool) : (setIntEnable b s).intEnable = b := rfl
@[simp] theorem setIntEnable_pendCapt (b : Bool) : (setIntEnable b s).pendCapt = s.pendCapt := rfl
@[simp] theorem setIntEnable_pendPca (b : Bool) : (setIntEnable b s).pendPca = s.pendPca := rfl
@[simp] theorem setIntEnable_pendWg0 (b : Bool) : (setIntEnable b s).pendWg0 = s.pendWg0 := rfl
@[simp] theorem setIntEnable_pendWg1 (b : Bool) : (setIntEnable b s).pendWg1 = s.pendWg1 := rfl
@[simp] theorem setIntEnable_icr (b : Bool) : (setIntEnable b s).icr = s.icr := rfl
@[simp] theorem setIntEnable_capIn (b : Bool) : (setIntEnable b s).capIn = s.capIn := rfl
@[simp] theorem setIntEnable_pgaIn (b : Bool) : (setIntEnable b s).pgaIn = s.pgaIn := rfl
@[simp] theorem setIntEnable_slots (b : Bool) : (setIntEnable b s).slots = s.slots := rfl
@[simp] theorem setIntEnable_qHead (b : Bool) : (setIntEnable b s).qHead = s.qHead := rfl
@[simp] theorem setIntEnable_qTail (b : Bool) : (setIntEnable b s).qTail = s.qTail := rfl
@[simp] theorem setIntEnable_drainLock (b : Bool) : (setIntEnable b s).drainLock = s.drainLock := rfl
@[simp] theorem setIntEnable_drainN (b : Bool) : (setIntEnable b s).drainN = s.drainN := rfl
@[simp] theorem setIntEnable_inst (b : Bool) : (setIntEnable b s).inst = s.inst := rfl
@[simp] theorem setIntEnable_wgBits (b : Bool) : (setIntEnable b s).wgBits = s.wgBits := rfl
@[simp] theorem setIntEnable_wgLastTs (b : Bool) : (setIntEnable b s).wgLastTs = s.wgLastTs := rfl
@[simp] theorem setIntEnable_wgDiagLen (b : Bool) : (setIntEnable b s).wgDiagLen = s.wgDiagLen := rfl
@[simp] theorem setIntEnable_wgDiagTs (b : Bool) : (setIntEnable b s).wgDiagTs = s.wgDiagTs := rfl
@[simp] theorem setIntEnable_xlateOption (b : Bool) : (setIntEnable b s).xlateOption = s.xlateOption := rfl
@[simp] theorem setIntEnable_tx0 (b : Bool) : (setIntEnable b s).tx0 = s.tx0 := rfl
@[simp] theorem setIntEnable_tx1 (b : Bool) : (setIntEnable b s).tx1 = s.tx1 := rfl
@[simp] theorem setIntEnable_txClk (b : Bool) : (setIntEnable b s).txClk = s.txClk := rfl
@[simp] theorem setIntEnable_txData (b : Bool) : (setIntEnable b s).txData = s.txData := rfl
@[simp] theorem setIntEnable_trace (b : Bool) : (setIntEnable b s).trace = s.trace := rfl
@[simp] theorem setIntEnable_setup (b : Bool) : (setIntEnable b s).setup = s.setup := rfl
@[simp] theorem setIntEnable_wgTaken (b : Bool) : (setIntEnable b s).wgTaken = s.wgTaken := rfl
@[simp] theorem setIntEnable_txRest (b : Bool) : (setIntEnable b s).txRest = s.txRest := rfl
@[simp] theorem setIntEnable_result (b : Bool) : (setIntEnable b s).result = s.result := rfl
@[simp] theorem setIntEnable_outcomes (b : Bool) : (setIntEnable b s).outcomes = s.outcomes := rfl
@[simp] theorem setIntEnable_stim (b : Bool) : (setIntEnable b s).stim = s.stim := rfl

/-! ### `qWrite` -/

@[simp] theorem qWrite_cfg (k : Nat) (e : EdgeEvent) : (qWrite k e s).cfg = s.cfg := rfl
@[simp] theorem qWrite_hardwareCounter (k : Nat) (e : EdgeEvent) : (qWrite k e s).hardwareCounter = s.hardwareCounter := rfl
@[simp] theorem qWrite_ovfFlag (k : Nat) (e : EdgeEvent) : (qWrite k e s).ovfFlag = s.ovfFlag := rfl
@[simp] theorem qWrite_overflowCount (k : Nat) (e : EdgeEvent) : (qWrite k e s).overflowCount = s.overflowCount := rfl
@[simp] theorem qWrite_T (k : Nat) (e : EdgeEvent) : (qWrite k e s).T = s.T := rfl
@[simp] theorem qWrite_clockLost (k : Nat) (e : EdgeEvent) : (qWrite k e s).clockLost = s.clockLost := rfl
@[simp] theorem qWrite_intEnable (k : Nat) (e : EdgeEvent) : (qWrite k e s).intEnable = s.intEnable := rfl
@[simp] theorem qWrite_pendCapt (k : Nat) (e : EdgeEvent) : (qWrite k e s).pendCapt = s.pendCapt := rfl
@[simp] theorem qWrite_pendPca (k : Nat) (e : EdgeEvent) : (qWrite k e s).pendPca = s.pendPca := rfl
@[simp] theorem qWrite_pendWg0 (k : Nat) (e : EdgeEvent) : (qWrite k e s).pendWg0 = s.pendWg0 := rfl
@[simp] theorem qWrite_pendWg1 (k : Nat) (e : EdgeEvent) : (qWrite k e s).pendWg1 = s.pendWg1 := rfl
@[simp] theorem qWrite_icr (k : Nat) (e : EdgeEvent) : (qWrite k e s).icr = s.icr := rfl
@[simp] theorem qWrite_capIn (k : Nat) (e : EdgeEvent) : (qWrite k e s).capIn = s.capIn := rfl
@[simp] theorem qWrite_pgaIn (k : Nat) (e : EdgeEvent) : (qWrite k e s).pgaIn = s.pgaIn := rfl
@[simp] theorem qWrite_slots (k : Nat) (e : EdgeEvent) : (qWrite k e s).slots = s.slots.write k e := rfl
@[simp] theorem qWrite_qHead (k : Nat) (e : EdgeEvent) : (qWrite k e s).qHead = s.qHead := rfl
@[simp] theorem qWrite_qTail (k : Nat) (e : EdgeEvent) : (qWrite k e s).qTail = s.qTail := rfl
@[simp] theorem qWrite_drainLock (k : Nat) (e : EdgeEvent) : (qWrite k e s).drainLock = s.drainLock := rfl
@[simp] theorem qWrite_drainN (k : Nat) (e : EdgeEvent) : (qWrite k e s).drainN = s.drainN := rfl
@[simp] theorem qWrite_inst (k : Nat) (e : EdgeEvent) : (qWrite k e s).inst = s.inst := rfl
@[simp] theorem qWrite_wgBits (k : Nat) (e : EdgeEvent) : (qWrite k e s).wgBits = s.wgBits := rfl
@[simp] theorem qWrite_wgLastTs (k : Nat) (e : EdgeEvent) : (qWrite k e s).wgLastTs = s.wgLastTs := rfl
@[simp] theorem qWrite_wgDiagLen (k : Nat) (e : EdgeEvent) : (qWrite k e s).wgDiagLen = s.wgDiagLen := rfl
@[simp] theorem qWrite_wgDiagTs (k : Nat) (e : EdgeEvent) : (qWrite k e s).wgDiagTs = s.wgDiagTs := rfl
@[simp] theorem qWrite_xlateOption (k : Nat) (e : EdgeEvent) : (qWrite k e s).xlateOption = s.xlateOption := rfl
@[simp] theorem qWrite_tx0 (k : Nat) (e : EdgeEvent) : (qWrite k e s).tx0 = s.tx0 := rfl
@[simp] theorem qWrite_tx1 (k : Nat) (e : EdgeEvent) : (qWrite k e s).tx1 = s.tx1 := rfl
@[simp] theorem qWrite_txClk (k : Nat) (e : EdgeEvent) : (qWrite k e s).txClk = s.txClk := rfl
@[simp] theorem qWrite_txData (k : Nat) (e : EdgeEvent) : (qWrite k e s).txData = s.txData := rfl
@[simp] theorem qWrite_trace (k : Nat) (e : EdgeEvent) : (qWrite k e s).trace = s.trace := rfl
@[simp] theorem qWrite_setup (k : Nat) (e : EdgeEvent) : (qWrite k e s).setup = s.setup := rfl
@[simp] theorem qWrite_wgTaken (k : Nat) (e : EdgeEvent) : (qWrite k e s).wgTaken = s.wgTaken := rfl
@[simp] theorem qWrite_txRest (k : Nat) (e : EdgeEvent) : (qWrite k e s).txRest = s.txRest := rfl
@[simp] theorem qWrite_result (k : Nat) (e : EdgeEvent) : (qWrite k e s).result = s.result := rfl
@[simp] theorem qWrite_outcomes (k : Nat) (e : EdgeEvent) : (qWrite k e s).outcomes = s.outcomes := rfl
@[simp] theorem qWrite_stim (k : Nat) (e : EdgeEvent) : (qWrite k e s).stim = s.stim := rfl

/-! ### `irqExit` -/

@[simp] theorem irqExit_cfg : (irqExit s).cfg = s.cfg := rfl
@[simp] theorem irqExit_hardwareCounter : (irqExit s).hardwareCounter = s.hardwareCounter := rfl
@[simp] theorem irqExit_ovfFlag : (irqExit s).ovfFlag = s.ovfFlag := rfl
@[simp] theorem irqExit_overflowCount : (irqExit s).overflowCount = s.overflowCount := rfl
@[simp] theorem irqExit_T : (irqExit s).T = s.T := rfl
@[simp] theorem irqExit_clockLost : (irqExit s).clockLost = s.clockLost := rfl
@[simp] theorem irqExit_intEnable : (irqExit s).intEnable = true := rfl
@[simp] theorem irqExit_pendCapt : (irqExit s).pendCapt = s.pendCapt := rfl
@[simp] theorem irqExit_pendPca : (irqExit s).pendPca = s.pendPca := rfl
@[simp] theorem irqExit_pendWg0 : (irqExit s).pendWg0 = s.pendWg0 := rfl
@[simp] theorem irqExit_pendWg1 : (irqExit s).pendWg1 = s.pendWg1 := rfl
@[simp] theorem irqExit_icr : (irqExit s).icr = s.icr := rfl
@[simp] theorem irqExit_capIn : (irqExit s).capIn = s.capIn := rfl
@[simp] theorem irqExit_pgaIn : (irqExit s).pgaIn = s.pgaIn := rfl
@[simp] theorem irqExit_slots : (irqExit s).slots = s.slots := rfl
@[simp] theorem irqExit_qHead : (irqExit s).qHead = s.qHead := rfl
@[simp] theorem irqExit_qTail : (irqExit s).qTail = s.qTail := rfl
@[simp] theorem irqExit_drainLock : (irqExit s).drainLock = s.drainLock := rfl
@[simp] theorem irqExit_drainN : (irqExit s).drainN = s.drainN := rfl
@[simp] theorem irqExit_inst : (irqExit s).inst = s.inst := rfl
@[simp] theorem irqExit_wgBits : (irqExit s).wgBits = s.wgBits := rfl
@[simp] theorem irqExit_wgLastTs : (irqExit s).wgLastTs = s.wgLastTs := rfl
@[simp] theorem irqExit_wgDiagLen : (irqExit s).wgDiagLen = s.wgDiagLen := rfl
@[simp] theorem irqExit_wgDiagTs : (irqExit s).wgDiagTs = s.wgDiagTs := rfl
@[simp] theorem irqExit_xlateOption : (irqExit s).xlateOption = s.xlateOption := rfl
@[simp] theorem irqExit_tx0 : (irqExit s).tx0 = s.tx0 := rfl
@[simp] theorem irqExit_tx1 : (irqExit s).tx1 = s.tx1 := rfl
@[simp] theorem irqExit_txClk : (irqExit s).txClk = s.txClk := rfl
@[simp] theorem irqExit_txData : (irqExit s).txData = s.txData := rfl
@[simp] theorem irqExit_trace : (irqExit s).trace = s.trace := rfl
@[simp] theorem irqExit_setup : (irqExit s).setup = s.setup := rfl
@[simp] theorem irqExit_wgTaken : (irqExit s).wgTaken = s.wgTaken := rfl
@[simp] theorem irqExit_txRest : (irqExit s).txRest = s.txRest := rfl
@[simp] theorem irqExit_result : (irqExit s).result = s.result := rfl
@[simp] theorem irqExit_outcomes : (irqExit s).outcomes = s.outcomes := rfl
@[simp] theorem irqExit_stim : (irqExit s).stim = s.stim := rfl

/-! ### `irqEnter` -/

@[simp] theorem irqEnter_cfg (src : IrqSource) : (irqEnter src s).cfg = s.cfg := by cases src <;> rfl
@[simp] theorem irqEnter_hardwareCounter (src : IrqSource) : (irqEnter src s).hardwareCounter = s.hardwareCounter := by cases src <;> rfl
@[simp] theorem irqEnter_ovfFlag (src : IrqSource) : (irqEnter src s).ovfFlag = s.ovfFlag := by cases src <;> rfl
@[simp] theorem irqEnter_overflowCount (src : IrqSource) : (irqEnter src s).overflowCount = s.overflowCount := by cases src <;> rfl
@[simp] theorem irqEnter_T (src : IrqSource) : (irqEnter src s).T = s.T := by cases src <;> rfl
@[simp] theorem irqEnter_clockLost (src : IrqSource) : (irqEnter src s).clockLost = s.clockLost := by cases src <;> rfl
@[simp] theorem irqEnter_intEnable (src : IrqSource) : (irqEnter src s).intEnable = false := by cases src <;> rfl
@[simp] theorem irqEnter_icr (src : IrqSource) : (irqEnter src s).icr = s.icr := by cases src <;> rfl
@[simp] theorem irqEnter_capIn (src : IrqSource) : (irqEnter src s).capIn = s.capIn := by cases src <;> rfl
@[simp] theorem irqEnter_pgaIn (src : IrqSource) : (irqEnter src s).pgaIn = s.pgaIn := by cases src <;> rfl
@[simp] theorem irqEnter_slots (src : IrqSource) : (irqEnter src s).slots = s.slots := by cases src <;> rfl
@[simp] theorem irqEnter_qHead (src : IrqSource) : (irqEnter src s).qHead = s.qHead := by cases src <;> rfl
@[simp] theorem irqEnter_qTail (src : IrqSource) : (irqEnter src s).qTail = s.qTail := by cases src <;> rfl
@[simp] theorem irqEnter_drainLock (src : IrqSource) : (irqEnter src s).drainLock = s.drainLock := by cases src <;> rfl
@[simp] theorem irqEnter_drainN (src : IrqSource) : (irqEnter src s).drainN = s.drainN := by cases src <;> rfl
@[simp] theorem irqEnter_inst (src : IrqSource) : (irqEnter src s).inst = s.inst := by cases src <;> rfl
@[simp] theorem irqEnter_wgBits (src : IrqSource) : (irqEnter src s).wgBits = s.wgBits := by cases src <;> rfl
@[simp] theorem irqEnter_wgLastTs (src : IrqSource) : (irqEnter src s).wgLastTs = s.wgLastTs := by cases src <;> rfl
@[simp] theorem irqEnter_wgDiagLen (src : IrqSource) : (irqEnter src s).wgDiagLen = s.wgDiagLen := by cases src <;> rfl
@[simp] theorem irqEnter_wgDiagTs (src : IrqSource) : (irqEnter src s).wgDiagTs = s.wgDiagTs := by cases src <;> rfl
@[simp] theorem irqEnter_xlateOption (src : IrqSource) : (irqEnter src s).xlateOption = s.xlateOption := by cases src <;> rfl
@[simp] theorem irqEnter_tx0 (src : IrqSource) : (irqEnter src s).tx0 = s.tx0 := by cases src <;> rfl
@[simp] theorem irqEnter_tx1 (src : IrqSource) : (irqEnter src s).tx1 = s.tx1 := by cases src <;> rfl
@[simp] theorem irqEnter_txClk (src : IrqSource) : (irqEnter src s).txClk = s.txClk := by cases src <;> rfl
@[simp] theorem irqEnter_txData (src : IrqSource) : (irqEnter src s).txData = s.txData := by cases src <;> rfl
@[simp] theorem irqEnter_trace (src : IrqSource) : (irqEnter src s).trace = s.trace := by cases src <;> rfl
@[simp] theorem irqEnter_setup (src : IrqSource) : (irqEnter src s).setup = s.setup := by cases src <;> rfl
@[simp] theorem irqEnter_wgTaken (src : IrqSource) : (irqEnter src s).wgTaken = s.wgTaken := by cases src <;> rfl
@[simp] theorem irqEnter_txRest (src : IrqSource) : (irqEnter src s).txRest = s.txRest := by cases src <;> rfl
@[simp] theorem irqEnter_result (src : IrqSource) : (irqEnter src s).result = s.result := by cases src <;> rfl
@[simp] theorem irqEnter_outcomes (src : IrqSource) : (irqEnter src s).outcomes = s.outcomes := by cases src <;> rfl
@[simp] theorem irqEnter_stim (src : IrqSource) : (irqEnter src s).stim = s.stim := by cases src <;> rfl

/-! ### `adv` -/

@[simp] theorem adv_cfg (n : Nat) : (adv n s).cfg = s.cfg := rfl
@[simp] theorem adv_hardwareCounter (n : Nat) : (adv n s).hardwareCounter = BitVec.ofNat 16 (s.hardwareCounter.toNat + n) := rfl
@[simp] theorem adv_ovfFlag (n : Nat) : (adv n s).ovfFlag = (s.ovfFlag || decide (1 ≤ (s.hardwareCounter.toNat + n) / 65536)) := rfl
@[simp] theorem adv_overflowCount (n : Nat) : (adv n s).overflowCount = s.overflowCount := rfl
@[simp] theorem adv_T (n : Nat) : (adv n s).T = s.T + n := rfl
@[simp] theorem adv_intEnable (n : Nat) : (adv n s).intEnable = s.intEnable := rfl
@[simp] theorem adv_pendCapt (n : Nat) : (adv n s).pendCapt = s.pendCapt := rfl
@[simp] theorem adv_pendPca (n : Nat) : (adv n s).pendPca = s.pendPca := rfl
@[simp] theorem adv_pendWg0 (n : Nat) : (adv n s).pendWg0 = s.pendWg0 := rfl
@[simp] theorem adv_pendWg1 (n : Nat) : (adv n s).pendWg1 = s.pendWg1 := rfl
@[simp] theorem adv_icr (n : Nat) : (adv n s).icr = s.icr := rfl
@[simp] theorem adv_capIn (n : Nat) : (adv n s).capIn = s.capIn := rfl
@[simp] theorem adv_pgaIn (n : Nat) : (adv n s).pgaIn = s.pgaIn := rfl
@[simp] theorem adv_slots (n : Nat) : (adv n s).slots = s.slots := rfl
@[simp] theorem adv_qHead (n : Nat) : (adv n s).qHead = s.qHead := rfl
@[simp] theorem adv_qTail (n : Nat) : (adv n s).qTail = s.qTail := rfl
@[simp] theorem adv_drainLock (n : Nat) : (adv n s).drainLock = s.drainLock := rfl
@[simp] theorem adv_drainN (n : Nat) : (adv n s).drainN = s.drainN := rfl
@[simp] theorem adv_inst (n : Nat) : (adv n s).inst = s.inst := rfl
@[simp] theorem adv_wgBits (n : Nat) : (adv n s).wgBits = s.wgBits := rfl
@[simp] theorem adv_wgLastTs (n : Nat) : (adv n s).wgLastTs = s.wgLastTs := rfl
@[simp] theorem adv_wgDiagLen (n : Nat) : (adv n s).wgDiagLen = s.wgDiagLen := rfl
@[simp] theorem adv_wgDiagTs (n : Nat) : (adv n s).wgDiagTs = s.wgDiagTs := rfl
@[simp] theorem adv_xlateOption (n : Nat) : (adv n s).xlateOption = s.xlateOption := rfl
@[simp] theorem adv_tx0 (n : Nat) : (adv n s).tx0 = s.tx0 := rfl
@[simp] theorem adv_tx1 (n : Nat) : (adv n s).tx1 = s.tx1 := rfl
@[simp] theorem adv_txClk (n : Nat) : (adv n s).txClk = s.txClk := rfl
@[simp] theorem adv_txData (n : Nat) : (adv n s).txData = s.txData := rfl
@[simp] theorem adv_trace (n : Nat) : (adv n s).trace = s.trace := rfl
@[simp] theorem adv_setup (n : Nat) : (adv n s).setup = s.setup := rfl
@[simp] theorem adv_wgTaken (n : Nat) : (adv n s).wgTaken = s.wgTaken := rfl
@[simp] theorem adv_txRest (n : Nat) : (adv n s).txRest = s.txRest := rfl
@[simp] theorem adv_result (n : Nat) : (adv n s).result = s.result := rfl
@[simp] theorem adv_outcomes (n : Nat) : (adv n s).outcomes = s.outcomes := rfl
@[simp] theorem adv_stim (n : Nat) : (adv n s).stim = s.stim := rfl

/-! ### `setLine` -/

@[simp] theorem setLine_cfg (sig : Signal) (lvl : Bool) : (setLine sig lvl s).cfg = s.cfg := by cases sig <;> rfl
@[simp] theorem setLine_hardwareCounter (sig : Signal) (lvl : Bool) : (setLine sig lvl s).hardwareCounter = s.hardwareCounter := by cases sig <;> rfl
@[simp] theorem setLine_ovfFlag (sig : Signal) (lvl : Bool) : (setLine sig lvl s).ovfFlag = s.ovfFlag := by cases sig <;> rfl
@[simp] theorem setLine_overflowCount (sig : Signal) (lvl : Bool) : (setLine sig lvl s).overflowCount = s.overflowCount := by cases sig <;> rfl
@[simp] theorem setLine_T (sig : Signal) (lvl : Bool) : (setLine sig lvl s).T = s.T := by cases sig <;> rfl
@[simp] theorem setLine_clockLost (sig : Signal) (lvl : Bool) : (setLine sig lvl s).clockLost = s.clockLost := by cases sig <;> rfl
@[simp] theorem setLine_intEnable (sig : Signal) (lvl : Bool) : (setLine sig lvl s).intEnable = s.intEnable := by cases sig <;> rfl
@[simp] theorem setLine_pendCapt (sig : Signal) (lvl : Bool) : (setLine sig lvl s).pendCapt = s.pendCapt := by cases sig <;> rfl
@[simp] theorem setLine_pendPca (sig : Signal) (lvl : Bool) : (setLine sig lvl s).pendPca = s.pendPca := by cases sig <;> rfl
@[simp] theorem setLine_pendWg0 (sig : Signal) (lvl : Bool) : (setLine sig lvl s).pendWg0 = s.pendWg0 := by cases sig <;> rfl
@[simp] theorem setLine_pendWg1 (sig : Signal) (lvl : Bool) : (setLine sig lvl s).pendWg1 = s.pendWg1 := by cases sig <;> rfl
@[simp] theorem setLine_icr (sig : Signal) (lvl : Bool) : (setLine sig lvl s).icr = s.icr := by cases sig <;> rfl
@[simp] theorem setLine_capIn (sig : Signal) (lvl : Bool) : (setLine sig lvl s).capIn = s.capIn := by cases sig <;> rfl
@[simp] theorem setLine_pgaIn (sig : Signal) (lvl : Bool) : (setLine sig lvl s).pgaIn = s.pgaIn := by cases sig <;> rfl
@[simp] theorem setLine_slots (sig : Signal) (lvl : Bool) : (setLine sig lvl s).slots = s.slots := by cases sig <;> rfl
@[simp] theorem setLine_qHead (sig : Signal) (lvl : Bool) : (setLine sig lvl s).qHead = s.qHead := by cases sig <;> rfl
@[simp] theorem setLine_qTail (sig : Signal) (lvl : Bool) : (setLine sig lvl s).qTail = s.qTail := by cases sig <;> rfl
@[simp] theorem setLine_drainLock (sig : Signal) (lvl : Bool) : (setLine sig lvl s).drainLock = s.drainLock := by cases sig <;> rfl
@[simp] theorem setLine_drainN (sig : Signal) (lvl : Bool) : (setLine sig lvl s).drainN = s.drainN := by cases sig <;> rfl
@[simp] theorem setLine_inst (sig : Signal) (lvl : Bool) : (setLine sig lvl s).inst = s.inst := by cases sig <;> rfl
@[simp] theorem setLine_wgBits (sig : Signal) (lvl : Bool) : (setLine sig lvl s).wgBits = s.wgBits := by cases sig <;> rfl
@[simp] theorem setLine_wgLastTs (sig : Signal) (lvl : Bool) : (setLine sig lvl s).wgLastTs = s.wgLastTs := by cases sig <;> rfl
@[simp] theorem setLine_wgDiagLen (sig : Signal) (lvl : Bool) : (setLine sig lvl s).wgDiagLen = s.wgDiagLen := by cases sig <;> rfl
@[simp] theorem setLine_wgDiagTs (sig : Signal) (lvl : Bool) : (setLine sig lvl s).wgDiagTs = s.wgDiagTs := by cases sig <;> rfl
@[simp] theorem setLine_xlateOption (sig : Signal) (lvl : Bool) : (setLine sig lvl s).xlateOption = s.xlateOption := by cases sig <;> rfl
@[simp] theorem setLine_trace (sig : Signal) (lvl : Bool) : (setLine sig lvl s).trace = s.trace := by cases sig <;> rfl
@[simp] theorem setLine_setup (sig : Signal) (lvl : Bool) : (setLine sig lvl s).setup = s.setup := by cases sig <;> rfl
@[simp] theorem setLine_wgTaken (sig : Signal) (lvl : Bool) : (setLine sig lvl s).wgTaken = s.wgTaken := by cases sig <;> rfl
@[simp] theorem setLine_txRest (sig : Signal) (lvl : Bool) : (setLine sig lvl s).txRest = s.txRest := by cases sig <;> rfl
@[simp] theorem setLine_result (sig : Signal) (lvl : Bool) : (setLine sig lvl s).result = s.result := by cases sig <;> rfl
@[simp] theorem setLine_outcomes (sig : Signal) (lvl : Bool) : (setLine sig lvl s).outcomes = s.outcomes := by cases sig <;> rfl
@[simp] theorem setLine_stim (sig : Signal) (lvl : Bool) : (setLine sig lvl s).stim = s.stim := by cases sig <;> rfl

/-! ### The fields that depend on the source, the line or the wraps -/

@[simp] theorem irqEnter_pendCapt (src : IrqSource) :
    (irqEnter src s).pendCapt = (s.pendCapt && src != .capt) := by cases src <;> simp [irqEnter]

@[simp] theorem irqEnter_pendPca (src : IrqSource) :
    (irqEnter src s).pendPca = (s.pendPca && src != .pca) := by cases src <;> simp [irqEnter]

@[simp] theorem irqEnter_pendWg0 (src : IrqSource) :
    (irqEnter src s).pendWg0 = (s.pendWg0 && src != .wg0) := by cases src <;> simp [irqEnter]

@[simp] theorem irqEnter_pendWg1 (src : IrqSource) :
    (irqEnter src s).pendWg1 = (s.pendWg1 && src != .wg1) := by cases src <;> simp [irqEnter]

@[simp] theorem adv_clockLost (n : Nat) :
    (adv n s).clockLost = (s.clockLost || (decide (1 ≤ (s.hardwareCounter.toNat + n) / 65536) && s.ovfFlag)
      || decide (2 ≤ (s.hardwareCounter.toNat + n) / 65536)) := rfl

@[simp] theorem setLine_tx0 (sig : Signal) (lvl : Bool) :
    (setLine sig lvl s).tx0 = if sig = .tx0 then lvl else s.tx0 := by cases sig <;> rfl

@[simp] theorem setLine_tx1 (sig : Signal) (lvl : Bool) :
    (setLine sig lvl s).tx1 = if sig = .tx1 then lvl else s.tx1 := by cases sig <;> rfl

@[simp] theorem setLine_txClk (sig : Signal) (lvl : Bool) :
    (setLine sig lvl s).txClk = if sig = .txClk then lvl else s.txClk := by cases sig <;> rfl

@[simp] theorem setLine_txData (sig : Signal) (lvl : Bool) :
    (setLine sig lvl s).txData = if sig = .txData then lvl else s.txData := by cases sig <;> rfl

end Sys2Proof.Machine
end

