-- ==== Sys2Proof/Laws/Ops.lean ====
section
/-! SUPPORT. For each shared operation, what it can do, said once. -/

namespace Sys2Proof.Machine

/-! ### Indices (R7, R32, R33, R76) -/

theorem one_lt_qcap (p : Params) : 1 < qcap p := by
  unfold qcap
  calc 1 < 2 := by decide
    _ = 2 ^ 1 := by decide
    _ ≤ 2 ^ (p.qcapExp + 1) := Nat.pow_le_pow_right (by decide) (by omega)

theorem and_qmask (p : Params) (k : Nat) : k &&& qmask p = k % qcap p := by
  unfold qmask qcap
  exact Nat.and_two_pow_sub_one_eq_mod k (p.qcapExp + 1)

theorem nextIdx_eq (p : Params) (k : Nat) : nextIdx p k = (k + 1) % qcap p := and_qmask p (k + 1)

theorem nextIdx_lt (p : Params) (k : Nat) : nextIdx p k < qcap p := by
  rw [nextIdx_eq]; exact Nat.mod_lt _ (by have := one_lt_qcap p; omega)

theorem headIdx_of_lt {s : State} (h : s.qHead < qcap s.cfg) : headIdx s = s.qHead := by
  rw [headIdx, and_qmask, Nat.mod_eq_of_lt h]

theorem tailIdx_of_lt {s : State} (h : s.qTail < qcap s.cfg) : tailIdx s = s.qTail := by
  rw [tailIdx, and_qmask, Nat.mod_eq_of_lt h]

/-! ### Enablement (R352, R353, R356) -/

theorem whenever_true (f : State → State) (s : State) : whenever true f s = f s := rfl

theorem whenever_false (f : State → State) (s : State) : whenever false f s = s := rfl

/-- A polling operation has its effect or changes nothing. -/
theorem whenever_cases (b : Bool) (f : State → State) (s : State) :
    (b = true ∧ whenever b f s = f s) ∨ (b = false ∧ whenever b f s = s) := by
  cases b
  · exact .inr ⟨rfl, rfl⟩
  · exact .inl ⟨rfl, rfl⟩

/-- A service runs as entry, body and exit, or changes nothing. -/
theorem service_cases (src : IrqSource) (body : State → State) (s : State) :
    (irqEnabled src s = true ∧ service src body s = irqExit (body (irqEnter src s))) ∨
    (irqEnabled src s = false ∧ service src body s = s) := by
  unfold service
  cases irqEnabled src s
  · exact .inr ⟨rfl, rfl⟩
  · exact .inl ⟨rfl, rfl⟩

theorem txFree_iff (s : State) : txFree s = true ↔ s.wgTaken = none ∧ s.txRest = [] := by
  simp [txFree, Option.isNone_iff_eq_none, List.isEmpty_iff]

theorem pollFree_iff (s : State) : pollFree s = true ↔ s.drainLock = false ∧ s.wgTaken = none ∧ s.txRest = [] := by
  simp [pollFree, txFree_iff]

theorem inDrain_iff (s : State) : inDrain s = true ↔ s.drainLock = true ∧ s.wgTaken = none ∧ s.txRest = [] := by
  simp [inDrain, txFree_iff]

/-- Only where `int_enable` is 1 is a service enabled. -/
theorem intEnable_of_irqEnabled {src : IrqSource} {s : State} (h : irqEnabled src s = true) : s.intEnable = true := by
  simp only [irqEnabled, Bool.and_eq_true] at h
  exact h.1.1

/-! ### The clock -/

/-- What ADV changes: the counter, the flag and the two ghosts. -/
theorem adv_eq (n : Nat) (s : State) :
    adv n s = { s with T := s.T + n, hardwareCounter := (adv n s).hardwareCounter,
                       clockLost := (adv n s).clockLost, ovfFlag := (adv n s).ovfFlag } := rfl

/-- The timestamp as a number (R25, R152). -/
theorem stamp_toNat (c : U16) (s : State) :
    (stamp c s).toNat =
      ((s.overflowCount.toNat + if s.ovfFlag = true ∧ c.toNat < 32768 then 1 else 0) % 65536) * 65536 + c.toNat := by
  have hc : c.toNat < 2 ^ 16 := c.isLt
  have ho : s.overflowCount.toNat < 65536 := s.overflowCount.isLt
  unfold stamp joinHalves
  rw [BitVec.toNat_append, ← Nat.shiftLeft_add_eq_or_of_lt hc, Nat.shiftLeft_eq]
  by_cases h : s.ovfFlag = true ∧ c.toNat < 32768
  · rw [if_pos h, if_pos (by simpa using h), BitVec.toNat_add]
    rfl
  · rw [if_neg h, if_neg (by simpa using h), Nat.add_zero, Nat.mod_eq_of_lt ho]

/-! ### The instances -/

/-- An operation on `inst[i]` replaces that instance and logs, or changes nothing. -/
theorem onInst_cases (i : Nat) (f : Instance → Instance × List ErrorOutcome) (s : State) :
    (∃ I, s.inst[i]? = some I ∧
      onInst i f s = { s with inst := s.inst.set i (f I).1, outcomes := s.outcomes ++ (f I).2 }) ∨
    (s.inst[i]? = none ∧ onInst i f s = s) := by
  unfold onInst
  cases h : s.inst[i]? with
  | none => exact .inr ⟨rfl, rfl⟩
  | some I => exact .inl ⟨I, rfl, rfl⟩

theorem onInst_of_some {i : Nat} {s : State} {I : Instance} (f : Instance → Instance × List ErrorOutcome)
    (h : s.inst[i]? = some I) :
    onInst i f s = { s with inst := s.inst.set i (f I).1, outcomes := s.outcomes ++ (f I).2 } := by
  unfold onInst; rw [h]

/-- An operation on `inst[i]` changes the registry and the log only, and no instance's number. -/
theorem onInst_eq (i : Nat) (f : Instance → Instance × List ErrorOutcome) (s : State) :
    ∃ is os, onInst i f s = { s with inst := is, outcomes := s.outcomes ++ os } ∧ is.length = s.inst.length := by
  rcases onInst_cases i f s with ⟨I, -, h⟩ | ⟨-, h⟩
  · exact ⟨_, _, h, List.length_set⟩
  · exact ⟨s.inst, [], by rw [h, List.append_nil], rfl⟩

/-- If every instance has `P` and `f` keeps it, every instance has it afterwards. -/
theorem onInst_forall {P : Instance → Prop} {i : Nat} {f : Instance → Instance × List ErrorOutcome} {s : State}
    (hf : ∀ I ∈ s.inst, P I → P (f I).1) (h : ∀ I ∈ s.inst, P I) : ∀ I ∈ (onInst i f s).inst, P I := by
  rcases onInst_cases i f s with ⟨I, hI, he⟩ | ⟨-, he⟩
  · intro J hJ
    rw [he] at hJ
    rcases List.mem_or_eq_of_mem_set hJ with hJ' | rfl
    · exact h J hJ'
    · have hm := List.mem_of_getElem? hI
      exact hf I hm (h I hm)
  · rw [he]; exact h

/-- The dispatch loop changes the registry and the log only, and no instance's number. -/
theorem dispatchAll_eq (e : EdgeEvent) (s : State) :
    ∃ is os, dispatchAll e s = { s with inst := is, outcomes := s.outcomes ++ os } ∧ is.length = s.inst.length := by
  unfold dispatchAll
  generalize List.range s.inst.length = l
  induction l generalizing s with
  | nil => exact ⟨s.inst, [], by rw [List.append_nil]; rfl, rfl⟩
  | cons i l ih =>
    obtain ⟨is, os, h, hl⟩ := onInst_eq i (dispatchInst e) s
    obtain ⟨is', os', h', hl'⟩ := ih (dispatch i e s)
    refine ⟨is', os ++ os', ?_, ?_⟩
    · rw [List.foldl_cons, h']
      simp only [dispatch, h, List.append_assoc]
    · rw [hl']; simp only [dispatch, h, hl]

/-- If dispatch of the event to one instance keeps `P`, the whole loop keeps it for all. -/
theorem dispatchAll_forall {P : Instance → Prop} {e : EdgeEvent} (hf : ∀ I, P I → P (dispatchInst e I).1) (s : State)
    (h : ∀ I ∈ s.inst, P I) : ∀ I ∈ (dispatchAll e s).inst, P I := by
  unfold dispatchAll
  generalize List.range s.inst.length = l
  induction l generalizing s with
  | nil => exact h
  | cons i l ih => exact ih (dispatch i e s) (onInst_forall (fun I _ => hf I) h)

/-! ### The queue (R154, R160) -/

/-- ENQ drops the event and logs, or writes it at the head and moves the head on. -/
theorem enq_cases (e : EdgeEvent) (s : State) :
    (qFull s = true ∧ enq e s = recordAll [.queueOverflow] s) ∨
    (qFull s = false ∧
      enq e s = { s with slots := s.slots.write (headIdx s) e, qHead := nextIdx s.cfg (headIdx s) }) := by
  unfold enq
  cases qFull s
  · exact .inr ⟨rfl, rfl⟩
  · exact .inl ⟨rfl, rfl⟩

/-- ENQ changes the slots, the head and the log only. -/
theorem enq_eq (e : EdgeEvent) (s : State) :
    enq e s = { s with slots := (enq e s).slots, qHead := (enq e s).qHead, outcomes := (enq e s).outcomes } := by
  rcases enq_cases e s with ⟨-, h⟩ | ⟨-, h⟩
  · rw [h]; rfl
  · rw [h]

/-- TICKENQ changes the slots, the head and the log only. -/
theorem tickEnq_eq (s : State) :
    tickEnq s = { s with slots := (tickEnq s).slots, qHead := (tickEnq s).qHead, outcomes := (tickEnq s).outcomes } := by
  unfold tickEnq
  split
  · exact enq_eq _ s
  · rfl

/-- A drain step is done and changes nothing, or dispatches the event at the tail and moves the tail on. -/
theorem drainStep_cases (s : State) :
    ((s.drainN = s.cfg.drainMax ∨ qEmpty s = true) ∧ drainStep s = (s, false)) ∨
    (s.drainN ≠ s.cfg.drainMax ∧ qEmpty s = false ∧
      drainStep s = (dispatchAll (s.slots.read (tailIdx s))
        { s with qTail := nextIdx s.cfg (tailIdx s), drainN := s.drainN + 1 }, true)) := by
  unfold drainStep
  by_cases h : s.drainN = s.cfg.drainMax ∨ qEmpty s = true
  · exact .inl ⟨h, if_pos h⟩
  · have h' := not_or.1 h
    exact .inr ⟨h'.1, by simpa using h'.2, if_neg h⟩

/-- An invariant that every drain step keeps is kept by the drain loop. -/
theorem drainLoop_invariant {P : State → Prop} (h : ∀ s, P s → P (drainStep s).1) (n : Nat) (s : State) (hs : P s) :
    P (drainLoop n s) := by
  induction n generalizing s with
  | zero => exact hs
  | succ n ih =>
    unfold drainLoop
    split
    · exact ih _ (h s hs)
    · exact h s hs

/-! ### Transmissions (R300 to R302) -/

/-- What a micro-step changes: the clock, the lines, the trace, `int_enable` and the log. -/
theorem txStep_eq (t : TxStep) (s : State) :
    txStep t s = { s with
      T := (txStep t s).T, hardwareCounter := (txStep t s).hardwareCounter, clockLost := (txStep t s).clockLost,
      ovfFlag := (txStep t s).ovfFlag, intEnable := (txStep t s).intEnable, tx0 := (txStep t s).tx0,
      tx1 := (txStep t s).tx1, txClk := (txStep t s).txClk, txData := (txStep t s).txData,
      trace := (txStep t s).trace, outcomes := (txStep t s).outcomes } := by
  cases t with
  | item x =>
    cases x with
    | emit sig lvl => cases sig <;> rfl
    | wait us => rfl
  | setIntEnable b => rfl
  | record o => rfl

theorem txRun_nil (s : State) : txRun [] s = s := rfl

theorem txRun_cons (t : TxStep) (ts : List TxStep) (s : State) : txRun (t :: ts) s = txRun ts (txStep t s) := rfl

theorem txRun_append (a b : List TxStep) (s : State) : txRun (a ++ b) s = txRun b (txRun a s) := List.foldl_append

/-- What a run of micro-steps changes: the clock, the lines, the trace, `int_enable` and the log. -/
theorem txRun_eq (ts : List TxStep) (s : State) :
    txRun ts s = { s with
      T := (txRun ts s).T, hardwareCounter := (txRun ts s).hardwareCounter, clockLost := (txRun ts s).clockLost,
      ovfFlag := (txRun ts s).ovfFlag, intEnable := (txRun ts s).intEnable, tx0 := (txRun ts s).tx0,
      tx1 := (txRun ts s).tx1, txClk := (txRun ts s).txClk, txData := (txRun ts s).txData,
      trace := (txRun ts s).trace, outcomes := (txRun ts s).outcomes } := by
  induction ts generalizing s with
  | nil => rfl
  | cons t ts ih =>
    rw [txRun_cons, ih, txStep_eq]

/-- An invariant that every micro-step keeps is kept by a run of them. -/
theorem txRun_invariant {P : State → Prop} (h : ∀ t s, P s → P (txStep t s)) (ts : List TxStep) (s : State)
    (hs : P s) : P (txRun ts s) := by
  induction ts generalizing s with
  | nil => exact hs
  | cons t ts ih => exact ih _ (h t s hs)

/-! ### The Wiegand take (R273) -/

/-- The take hands over the buffer and empties it, or leaves all but `int_enable`. -/
theorem wgTake_cases (s : State) :
    (wgComplete s = true ∧ wgTake s =
      ({ s with wgBits := [], wgDiagLen := BitVec.ofNat 8 s.wgBits.length, wgDiagTs := s.wgLastTs,
                intEnable := true }, some s.wgBits)) ∨
    (wgComplete s = false ∧ wgTake s = ({ s with intEnable := true }, none)) := by
  unfold wgTake
  cases wgComplete s
  · exact .inr ⟨rfl, rfl⟩
  · exact .inl ⟨rfl, rfl⟩

end Sys2Proof.Machine
end

