-- ==== Sys2Proof/Laws/PerInstr.lean ====
section
/-! SUPPORT. Per-instruction laws. EncodeRow: the word of an operation carries the fixed bits that the opcode table
gives its row, and an operation has a word exactly where its row has fixed bits. -/

namespace Sys2Proof.Laws

/-- `match` and `mask` of an operation's row of the opcode table; none for a sub-operation. -/
def EncodeRow.fixedBits : Instr → Option (SelectWord × SelectWord)
  | .reset => some (0x000000000000, 0xFFFFFFFFFFFF)
  | .adv _ => some (0x010000000000, 0xFFFF00000000)
  | .capedge _ => some (0x020000000000, 0xFFFEFFFFFFFF)
  | .pgaset _ => some (0x030000000000, 0xFF00FFFFFFFF)
  | .wgpulse _ => some (0x040000000000, 0xFFFEFFFFFFFF)
  | .isrCapt => some (0x080000000000, 0xFFFFFFFFFFFF)
  | .isrPca => some (0x090000000000, 0xFFFFFFFFFFFF)
  | .isrWg0 => some (0x0A0000000000, 0xFFFFFFFFFFFF)
  | .isrWg1 => some (0x0B0000000000, 0xFFFFFFFFFFFF)
  | .isrTov => some (0x0C0000000000, 0xFFFFFFFFFFFF)
  | .cli => some (0x100000000000, 0xFFFFFFFFFFFF)
  | .sti => some (0x110000000000, 0xFFFFFFFFFFFF)
  | .now => some (0x120000000000, 0xFFFFFFFFFFFF)
  | .drain => some (0x130000000000, 0xFFFFFFFFFFFF)
  | .irread _ => some (0x140000000000, 0xFF00FFFFFFFF)
  | .wgpoll => some (0x150000000000, 0xFFFFFFFFFFFF)
  | .tx32 _ => some (0x160000000000, 0xFFFF00000000)
  | .txcred _ => some (0x170000000000, 0xFFFF00000000)
  | .txkey _ => some (0x180000000000, 0xFF00FFFFFFFF)
  | .register _ _ _ _ => some (0x190000000000, 0xFF7CFFFFFF00)
  | .drainBegin => some (0x1A0000000000, 0xFFFFFFFFFFFF)
  | .drainStep => some (0x1B0000000000, 0xFFFFFFFFFFFF)
  | .drainEnd => some (0x1C0000000000, 0xFFFFFFFFFFFF)
  | .stamp _ | .enq _ | .tickenq | .dispatch _ _ | .discard _ _ | .edgekind _ _ _
  | .conv _ _ | .irEdge _ _ _ _ _ | .irFallStart _ | .irFallSync _ | .irFallRepeat _ | .irFallAbort _
  | .irFallBit _ _ _ | .irPublish _ _ | .irRise _ _ | .wgRaw _ | .wgCanon _ _ | .wgKeymap _
  | .wgForward _ | .emit _ _ | .wait _ | .tx32Bit _ | .cdBit _ | .cdWord _
  | .cdFrame _ => none

/-- The word of `i`, if any, has the fixed bits of its row, if any. -/
def EncodeRow.Statement (i : Instr) : Prop :=
  (∀ w, encode i = some w → ∃ r, EncodeRow.fixedBits i = some r ∧ w &&& r.2 = r.1) ∧
  (encode i = none → EncodeRow.fixedBits i = none)

/-- A mask acts on the three fields of a word. -/
theorem joinFields_and (op a : U8) (b : U32) (op' a' : U8) (b' : U32) :
    joinFields op a b &&& joinFields op' a' b' = joinFields (op &&& op') (a &&& a') (b &&& b') := by
  unfold joinFields
  rw [← BitVec.and_append, ← BitVec.and_append]

/-- A word with these fields has these fixed bits if its fields have them. -/
theorem EncodeRow.of_fields {i : Instr} {op a : U8} {b : U32} {value mask : SelectWord} (op' a' : U8) (b' : U32)
    (hi : encode i = some (joinFields op a b)) (hr : EncodeRow.fixedBits i = some (value, mask))
    (hm : mask = joinFields op' a' b') (hf : joinFields (op &&& op') (a &&& a') (b &&& b') = value) :
    EncodeRow.Statement i := by
  refine ⟨fun w hw => ⟨_, hr, ?_⟩, fun h => ?_⟩
  · obtain rfl : joinFields op a b = w := Option.some.inj (hi.symm.trans hw)
    show joinFields op a b &&& mask = value
    rw [hm, joinFields_and, hf]
  · rw [hi] at h; cases h

/-- The upper bits of a widened byte are zero. -/
theorem setWidth_and_upper (m : U8) : m.setWidth 32 &&& 0xFFFFFF00#32 = 0#32 := by
  revert m; decide

/-- A sub-operation has no word. -/
theorem EncodeRow.of_none {i : Instr} (hi : encode i = none) (hr : EncodeRow.fixedBits i = none) :
    EncodeRow.Statement i :=
  ⟨fun w hw => (by rw [hi] at hw; cases hw), fun _ => hr⟩

theorem EncodeRow.reset : EncodeRow.Statement (.reset) :=
  EncodeRow.of_fields 0xFF 0xFF 0xFFFFFFFF rfl rfl rfl rfl

theorem EncodeRow.adv (n : U32) : EncodeRow.Statement (.adv n) :=
  EncodeRow.of_fields 0xFF 0xFF 0x00000000 rfl rfl rfl (by simp; rfl)

theorem EncodeRow.capedge (l : Bool) : EncodeRow.Statement (.capedge l) :=
  EncodeRow.of_fields 0xFF 0xFE 0xFFFFFFFF rfl rfl rfl (by cases l <;> rfl)

theorem EncodeRow.pgaset (v : U8) : EncodeRow.Statement (.pgaset v) :=
  EncodeRow.of_fields 0xFF 0x00 0xFFFFFFFF rfl rfl rfl (by simp; rfl)

theorem EncodeRow.wgpulse (k : Bool) : EncodeRow.Statement (.wgpulse k) :=
  EncodeRow.of_fields 0xFF 0xFE 0xFFFFFFFF rfl rfl rfl (by cases k <;> rfl)

theorem EncodeRow.isrCapt : EncodeRow.Statement (.isrCapt) :=
  EncodeRow.of_fields 0xFF 0xFF 0xFFFFFFFF rfl rfl rfl rfl

theorem EncodeRow.isrPca : EncodeRow.Statement (.isrPca) :=
  EncodeRow.of_fields 0xFF 0xFF 0xFFFFFFFF rfl rfl rfl rfl

theorem EncodeRow.isrWg0 : EncodeRow.Statement (.isrWg0) :=
  EncodeRow.of_fields 0xFF 0xFF 0xFFFFFFFF rfl rfl rfl rfl

theorem EncodeRow.isrWg1 : EncodeRow.Statement (.isrWg1) :=
  EncodeRow.of_fields 0xFF 0xFF 0xFFFFFFFF rfl rfl rfl rfl

theorem EncodeRow.isrTov : EncodeRow.Statement (.isrTov) :=
  EncodeRow.of_fields 0xFF 0xFF 0xFFFFFFFF rfl rfl rfl rfl

theorem EncodeRow.cli : EncodeRow.Statement (.cli) :=
  EncodeRow.of_fields 0xFF 0xFF 0xFFFFFFFF rfl rfl rfl rfl

theorem EncodeRow.sti : EncodeRow.Statement (.sti) :=
  EncodeRow.of_fields 0xFF 0xFF 0xFFFFFFFF rfl rfl rfl rfl

theorem EncodeRow.now : EncodeRow.Statement (.now) :=
  EncodeRow.of_fields 0xFF 0xFF 0xFFFFFFFF rfl rfl rfl rfl

theorem EncodeRow.drain : EncodeRow.Statement (.drain) :=
  EncodeRow.of_fields 0xFF 0xFF 0xFFFFFFFF rfl rfl rfl rfl

theorem EncodeRow.irread (i : U8) : EncodeRow.Statement (.irread i) :=
  EncodeRow.of_fields 0xFF 0x00 0xFFFFFFFF rfl rfl rfl (by simp; rfl)

theorem EncodeRow.wgpoll : EncodeRow.Statement (.wgpoll) :=
  EncodeRow.of_fields 0xFF 0xFF 0xFFFFFFFF rfl rfl rfl rfl

theorem EncodeRow.tx32 (v : U32) : EncodeRow.Statement (.tx32 v) :=
  EncodeRow.of_fields 0xFF 0xFF 0x00000000 rfl rfl rfl (by simp; rfl)

theorem EncodeRow.txcred (v : U32) : EncodeRow.Statement (.txcred v) :=
  EncodeRow.of_fields 0xFF 0xFF 0x00000000 rfl rfl rfl (by simp; rfl)

theorem EncodeRow.txkey (c : Key) : EncodeRow.Statement (.txkey c) :=
  EncodeRow.of_fields 0xFF 0x00 0xFFFFFFFF rfl rfl rfl (by simp; rfl)

theorem EncodeRow.register (source : Source) (protocol : Protocol) (mask : U8) (rate : ClockRate) :
    EncodeRow.Statement (.register source protocol mask rate) :=
  EncodeRow.of_fields 0xFF 0x7C 0xFFFFFF00 rfl rfl rfl (by
    show joinFields _ _ (mask.setWidth 32 &&& 0xFFFFFF00#32) = _
    rw [setWidth_and_upper]; cases source <;> cases rate <;> rfl)

theorem EncodeRow.drainBegin : EncodeRow.Statement (.drainBegin) :=
  EncodeRow.of_fields 0xFF 0xFF 0xFFFFFFFF rfl rfl rfl rfl

theorem EncodeRow.drainStep : EncodeRow.Statement (.drainStep) :=
  EncodeRow.of_fields 0xFF 0xFF 0xFFFFFFFF rfl rfl rfl rfl

theorem EncodeRow.drainEnd : EncodeRow.Statement (.drainEnd) :=
  EncodeRow.of_fields 0xFF 0xFF 0xFFFFFFFF rfl rfl rfl rfl

theorem EncodeRow.stamp (c : U16) : EncodeRow.Statement (.stamp c) :=
  EncodeRow.of_none rfl rfl

theorem EncodeRow.enq (e : EdgeEvent) : EncodeRow.Statement (.enq e) :=
  EncodeRow.of_none rfl rfl

theorem EncodeRow.tickenq : EncodeRow.Statement (.tickenq) :=
  EncodeRow.of_none rfl rfl

theorem EncodeRow.dispatch (i : Nat) (e : EdgeEvent) : EncodeRow.Statement (.dispatch i e) :=
  EncodeRow.of_none rfl rfl

theorem EncodeRow.discard (i : Nat) (e : EdgeEvent) : EncodeRow.Statement (.discard i e) :=
  EncodeRow.of_none rfl rfl

theorem EncodeRow.edgekind (old new : U8) (tick : Bool) : EncodeRow.Statement (.edgekind old new tick) :=
  EncodeRow.of_none rfl rfl

theorem EncodeRow.conv (rate : ClockRate) (d : U32) : EncodeRow.Statement (.conv rate d) :=
  EncodeRow.of_none rfl rfl

theorem EncodeRow.irEdge (i : Nat) (kind : EdgeKind) (delta units : Int) (ts : U32) :
    EncodeRow.Statement (.irEdge i kind delta units ts) :=
  EncodeRow.of_none rfl rfl

theorem EncodeRow.irFallStart (i : Nat) : EncodeRow.Statement (.irFallStart i) :=
  EncodeRow.of_none rfl rfl

theorem EncodeRow.irFallSync (i : Nat) : EncodeRow.Statement (.irFallSync i) :=
  EncodeRow.of_none rfl rfl

theorem EncodeRow.irFallRepeat (i : Nat) : EncodeRow.Statement (.irFallRepeat i) :=
  EncodeRow.of_none rfl rfl

theorem EncodeRow.irFallAbort (i : Nat) : EncodeRow.Statement (.irFallAbort i) :=
  EncodeRow.of_none rfl rfl

theorem EncodeRow.irFallBit (i : Nat) (delta : Int) (ts : U32) : EncodeRow.Statement (.irFallBit i delta ts) :=
  EncodeRow.of_none rfl rfl

theorem EncodeRow.irPublish (i : Nat) (ts : U32) : EncodeRow.Statement (.irPublish i ts) :=
  EncodeRow.of_none rfl rfl

theorem EncodeRow.irRise (i : Nat) (delta : Int) : EncodeRow.Statement (.irRise i delta) :=
  EncodeRow.of_none rfl rfl

theorem EncodeRow.wgRaw (msg : List Bool) : EncodeRow.Statement (.wgRaw msg) :=
  EncodeRow.of_none rfl rfl

theorem EncodeRow.wgCanon (n v : Nat) : EncodeRow.Statement (.wgCanon n v) :=
  EncodeRow.of_none rfl rfl

theorem EncodeRow.wgKeymap (code : U4) : EncodeRow.Statement (.wgKeymap code) :=
  EncodeRow.of_none rfl rfl

theorem EncodeRow.wgForward (res : WgResult) : EncodeRow.Statement (.wgForward res) :=
  EncodeRow.of_none rfl rfl

theorem EncodeRow.emit (sig : Signal) (lvl : Bool) : EncodeRow.Statement (.emit sig lvl) :=
  EncodeRow.of_none rfl rfl

theorem EncodeRow.wait (us : Nat) : EncodeRow.Statement (.wait us) :=
  EncodeRow.of_none rfl rfl

theorem EncodeRow.tx32Bit (b : Bool) : EncodeRow.Statement (.tx32Bit b) :=
  EncodeRow.of_none rfl rfl

theorem EncodeRow.cdBit (b : Bool) : EncodeRow.Statement (.cdBit b) :=
  EncodeRow.of_none rfl rfl

theorem EncodeRow.cdWord (w : U4) : EncodeRow.Statement (.cdWord w) :=
  EncodeRow.of_none rfl rfl

theorem EncodeRow.cdFrame (words : List U4) : EncodeRow.Statement (.cdFrame words) :=
  EncodeRow.of_none rfl rfl

end Sys2Proof.Laws
end

