-- ==== Sys2Proof/Tests/Slice0.lean ====
section
/-! SUPPORT. Tests: ill-formed terms, words written out from the spec's encodings, single steps with the results of
the spec's vectors (95_test_vectors.md), and for every statement with hypotheses a state and operands that meet them. -/

namespace Sys2Proof.Tests

open Sys2Proof Sys2Proof.Machine

/-! ### States -/

/-- The working values of the OPEN parameters (95_test_vectors.md, conventions) and the defaults of R7. -/
def work : Params where
  qcapExp := 5
  drainMax := 32
  nInst := 4
  tick := .ns4000
  cdStart := 0xB
  cdSep := 0xD
  cdEnd := 0xF
  keyLayout := { slot1 := 2, slot2Gap := 0, fill := #v[.start, .sep, .start, .start, .sep, .stop] }

/-- After reset, with those parameters. -/
def base : State := { State.reset with cfg := work }

/-- After setup. -/
def live : State := { base with intEnable := true, setup := false }

/-- The default instance of the vectors in a given decoder state. -/
def irInst (w : InWord) (bits : Nat) (acc accTime : U32) : Instance where
  source := .timer
  protocol := .infrared
  mask := 1
  clockRate := .ns4000
  lastLevel := 1
  lastTs := 250
  inWord := w
  bitsReceived := bits
  bitAccumulator := acc
  lastMessageTimestamp := 0
  accTime := accTime
  capturedMessage := 0
  capturedBitCount := 0

/-- One instance in a given decoder state. -/
def irState (w : InWord) (bits : Nat) (acc accTime : U32) : State := { live with inst := [irInst w bits acc accTime] }

/-- The first instance of a state. -/
def inst0 (s : State) : Instance := s.inst.headD (irInst .idle 0 0 0)

/-- A falling capture edge and the event it is queued as. -/
def capEvent0 : EdgeEvent := { source := .timer, tick := false, level := 0, timestamp := 2500 }

/-- A state with `n` queued events, `QCAP = 8` and `DRAIN_MAX = 4`. -/
def queued8 (head tail : Nat) : State :=
  { live with cfg := { work with qcapExp := 2, drainMax := 4 }, qHead := head, qTail := tail,
              slots := (List.range 8).map fun k => (k, { capEvent0 with timestamp := BitVec.ofNat 32 (100 * k + 100) }) }

/-- The state after one operation. -/
def after (i : Instr) (s : State) : State := runOps [i] s

/-! ### WellFormed: for each check a term it refuses -/

theorem test_register_two_mask_bits : (Instr.register .pinGroupA .infrared 0x03 .ns4000).wellFormed = false := by decide
theorem test_register_no_mask_bit : (Instr.register .pinGroupA .infrared 0 .ns4000).wellFormed = false := by decide
theorem test_register_timer_mask : (Instr.register .timer .infrared 0x02 .ns4000).wellFormed = false := by decide
theorem test_enq_pin_group_tick :
    (Instr.enq { source := .pinGroupA, tick := true, level := 0, timestamp := 0 }).wellFormed = false := by decide
theorem test_dispatch_timer_level :
    (Instr.dispatch 0 { source := .timer, tick := false, level := 2, timestamp := 0 }).wellFormed = false := by decide
theorem test_discard_timer_level :
    (Instr.discard 0 { source := .timer, tick := true, level := 0x80, timestamp := 0 }).wellFormed = false := by decide
theorem test_irEdge_tick : (Instr.irEdge 0 .tick 0 0 0).wellFormed = false := by decide
theorem test_irEdge_delta : (Instr.irEdge 0 .fall 32768 32768 0).wellFormed = false := by decide
theorem test_irFallBit_delta : (Instr.irFallBit 0 (-32769) 0).wellFormed = false := by decide
theorem test_irRise_delta : (Instr.irRise 0 40000).wellFormed = false := by decide
theorem test_wgRaw_empty : (Instr.wgRaw []).wellFormed = false := by decide
theorem test_wgRaw_71 : (Instr.wgRaw (List.replicate 71 true)).wellFormed = false := by decide
theorem test_wgCanon_value : (Instr.wgCanon 4 16).wellFormed = false := by decide
theorem test_wgCanon_length : (Instr.wgCanon 71 0).wellFormed = false := by decide
theorem test_wgForward_zero_credential : (Instr.wgForward (.cred 0)).wellFormed = false := by decide
theorem test_wgForward_noise_26 : (Instr.wgForward (.noise 26)).wellFormed = false := by decide

/-! ### Decode: the words of 95_test_vectors.md, one or more for each row with a word -/

theorem test_decode_reset : decode 0x000000000000 = .ok .reset := by rfl
theorem test_decode_adv : decode 0x01000000FC7C = .ok (.adv 64636) := by rfl
theorem test_decode_capedge : decode 0x020100000000 = .ok (.capedge true) := by rfl
theorem test_decode_pgaset : decode 0x03FB00000000 = .ok (.pgaset 0xFB) := by rfl
theorem test_decode_wgpulse : decode 0x040100000000 = .ok (.wgpulse true) := by rfl
theorem test_decode_isrCapt : decode 0x080000000000 = .ok .isrCapt := by rfl
theorem test_decode_isrPca : decode 0x090000000000 = .ok .isrPca := by rfl
theorem test_decode_isrWg0 : decode 0x0A0000000000 = .ok .isrWg0 := by rfl
theorem test_decode_isrWg1 : decode 0x0B0000000000 = .ok .isrWg1 := by rfl
theorem test_decode_isrTov : decode 0x0C0000000000 = .ok .isrTov := by rfl
theorem test_decode_cli : decode 0x100000000000 = .ok .cli := by rfl
theorem test_decode_sti : decode 0x110000000000 = .ok .sti := by rfl
theorem test_decode_now : decode 0x120000000000 = .ok .now := by rfl
theorem test_decode_drain : decode 0x130000000000 = .ok .drain := by rfl
theorem test_decode_irread : decode 0x140100000000 = .ok (.irread 1) := by rfl
theorem test_decode_wgpoll : decode 0x150000000000 = .ok .wgpoll := by rfl
theorem test_decode_tx32 : decode 0x1600A5A5A5A5 = .ok (.tx32 0xA5A5A5A5) := by rfl
theorem test_decode_txcred : decode 0x1700007BB26E = .ok (.txcred 8106606) := by rfl
theorem test_decode_txkey : decode 0x183100000000 = .ok (.txkey (.digit 1)) := by rfl
theorem test_decode_txkey_bell : decode 0x180700000000 = .ok (.txkey .bell) := by rfl
theorem test_decode_register : decode 0x190100000001 = .ok (.register .timer .infrared 1 .ns4000) := by rfl
theorem test_decode_register_pga :
    decode 0x198300000080 = .ok (.register .pinGroupA .infrared 0x80 .ns125) := by rfl
theorem test_decode_drainBegin : decode 0x1A0000000000 = .ok .drainBegin := by rfl
theorem test_decode_drainStep : decode 0x1B0000000000 = .ok .drainStep := by rfl
theorem test_decode_drainEnd : decode 0x1C0000000000 = .ok .drainEnd := by rfl

/-- The words of V-ENC-1. -/
theorem test_reject_op : decode 0x050000000000 = .error .unlistedOp := by rfl
theorem test_reject_a : decode 0x020200000000 = .error .unusedOperand := by rfl
theorem test_reject_b : decode 0x080000000001 = .error .unusedOperand := by rfl
theorem test_reject_protocol : decode 0x190500000001 = .error .reservedProtocol := by rfl
theorem test_reject_two_bits : decode 0x190100000003 = .error .reservedMask := by rfl
theorem test_reject_timer_mask : decode 0x190100000002 = .error .reservedMask := by rfl
theorem test_reject_a6 : decode 0x194100000001 = .error .unusedOperand := by rfl
theorem test_reject_key : decode 0x184100000000 = .error .reservedKey := by rfl

/-- V-Q-4: the packed records. -/
theorem test_pack : ({ source := .pinGroupA, tick := false, level := 0xFB, timestamp := 0x00030100 } : EdgeEvent).pack
    = 0x2FB00030100 := by rfl

theorem test_table_word : decodeTableWord 48 0x1600A5A5A5A5 = some (.tx32 0xA5A5A5A5) := by rfl
theorem test_table_word_invalid : decodeTableWord 48 0x000000000001 = none := by rfl

/-! ### One step of each operation, with the spec's results -/

/-- R380. -/
theorem test_reset : AtReset (after .reset { live with T := 9, qHead := 3, txRest := [.setIntEnable true] }) ∧
    (after .reset { live with txRest := [.setIntEnable true] }).txRest = [] ∧
    (after .reset live).setup = true := by decide
/-- The example of R150, and the lost overflow of V-CLK-2. -/
theorem test_adv : ((after (.adv 10) { base with hardwareCounter := 0xFFFA }).hardwareCounter,
    (after (.adv 10) { base with hardwareCounter := 0xFFFA }).ovfFlag) = (4, true) := by decide
theorem test_adv_lost : (after (.adv 65536) { base with ovfFlag := true }).clockLost = true := by decide
/-- The example of R151. -/
theorem test_capedge : ((after (.capedge false) { base with hardwareCounter := 250 }).icr,
    (after (.capedge false) { base with hardwareCounter := 250 }).pendCapt) = (250, true) := by decide
theorem test_capedge_none : after (.capedge true) base = base := by decide
/-- The example of R166, and a change outside the mask. -/
theorem test_pgaset : (after (.pgaset 0xFB)
    { base with inst := [{ irInst .idle 0 0 0 with source := .pinGroupA, mask := 4 }] }).pendPca = true := by decide
theorem test_pgaset_unmonitored : (after (.pgaset 0xFE)
    { base with inst := [{ irInst .idle 0 0 0 with source := .pinGroupA, mask := 4 }] }).pendPca = false := by decide
/-- R270. -/
theorem test_wgpulse : ((after (.wgpulse true) base).pendWg1, (after (.wgpulse true) base).pendWg0) = (true, false) := by
  decide
/-- P4 steps 3 and 4. -/
theorem test_isrCapt :
    ((after .isrCapt { live with capIn := false, icr := 0xFFFA, pendCapt := true, ovfFlag := true }).slots,
     (after .isrCapt { live with icr := 4, pendCapt := true, ovfFlag := true }).slots)
    = ([(0, ⟨.timer, false, 0, 65530⟩)], [(0, ⟨.timer, false, 1, 65540⟩)]) := by decide
/-- The example of R157. -/
def pcaPending : State := { live with pgaIn := 0xFB, hardwareCounter := 0x0100, overflowCount := 3, pendPca := true }
theorem test_isrPca : (after .isrPca pcaPending).slots = [(0, ⟨.pinGroupA, false, 0xFB, 0x00030100⟩)] := by decide
/-- The example of R271; a 71st pulse (V-WG-13). -/
def pulse0 : State := { live with wgBits := [true], hardwareCounter := 1000, pendWg0 := true }
def pulse71 : State := { live with wgBits := List.replicate 70 true, hardwareCounter := 35500, pendWg1 := true }
theorem test_isrWg0 : ((after .isrWg0 pulse0).wgBits, (after .isrWg0 pulse0).wgLastTs) = ([true, false], 1000) := by
  decide
theorem test_isrWg1_full : ((after .isrWg1 pulse71).wgBits.length, (after .isrWg1 pulse71).wgLastTs) = (70, 35500) := by
  decide
/-- P2 step 7: the Tick; P5 step 2: not enabled. -/
theorem test_isrTov : (after .isrTov { live with overflowCount := 1, ovfFlag := true, capIn := false }).slots
    = [(0, ⟨.timer, true, 0, 131072⟩)] := by decide
theorem test_isrTov_masked : after .isrTov { base with ovfFlag := true } = { base with ovfFlag := true } := by decide
theorem test_cli : (after .cli live).intEnable = false := by decide
theorem test_sti : ((after .sti base).intEnable, (after .sti base).setup) = (true, false) := by decide
/-- V-Q-5. -/
theorem test_now : (after .now { live with overflowCount := 1, hardwareCounter := 0x000E }).result = .time 65550 := by
  decide
/-- V-Q-3: seven events, a bound of four. -/
theorem test_drain : ((after .drain (queued8 7 0)).qTail, (after .drain (queued8 7 0)).drainN,
    (after .drain (queued8 7 0)).drainLock) = (4, 4, false) := by decide
/-- R240. -/
def captured : Instance := { irInst .idle 0 0 0 with capturedMessage := 0xA5A5A5A5, capturedBitCount := 32 }
theorem test_irread : ((after (.irread 0) { live with inst := [captured] }).result,
    inst0 (after (.irread 0) { live with inst := [captured] })) = (.message 0xA5A5A5A5 32, irInst .idle 0 0 0) := by decide
theorem test_irread_none : (after (.irread 0) (irState .idle 0 0 0)).result = .message 0 0 := by decide
/-- V-WG-12: one tick short of the timeout, and exactly at it. -/
def fourBits (now : U16) : State :=
  { live with wgBits := [true, false, true, true], wgLastTs := 2000, hardwareCounter := now }
theorem test_wgpoll_early : (after .wgpoll (fourBits 6999)).result = .wiegand .nothing := by decide
theorem test_wgpoll : ((after .wgpoll (fourBits 7000)).result, (after .wgpoll (fourBits 7000)).wgDiagTs,
    (after .wgpoll (fourBits 7000)).wgBits) = (.wiegand (.key 11), 2000, []) := by decide
/-- V-TX-3, V-TX-1. -/
theorem test_tx32_zero : after (.tx32 0) base = { base with outcomes := [.zeroCredential] } := by decide
theorem test_tx32 : ((after (.tx32 0x80000000) live).trace.take 8, (after (.tx32 0x80000000) live).T)
    = ([.emit .tx1 false, .wait 40, .emit .tx1 true, .wait 200, .emit .tx0 false, .wait 40, .emit .tx0 true, .wait 200],
       1920) := by decide +kernel
/-- V-TX-8; the words of `TXCRED 8106606` (V-TX-6). -/
theorem test_txcred_zero : (after (.txcred 100000000) live).trace = [] := by decide
theorem test_txcred : credFrame work 8106606 = [0xB, 0, 8, 1, 0, 6, 6, 0, 6, 0xF] ∧
    (after (.txcred 8106606) live).T = 7500 := by decide +kernel
/-- V-TX-7: the words of the key `#` and its duration. -/
theorem test_txkey : keyWords work .hash = [0xB, 0xD, 1, 1, 0xD, 0xF] ∧
    keypressWords work .bell = [0xB, 0xD, 1, 5, 0xD, 0xF] ∧
    (after (.txkey .hash) live).T = 5500 := by decide +kernel
/-- The example of R200, and REGISTER after setup (V-ENC-2). -/
theorem test_register : ((after (.register .timer .infrared 1 .ns4000) base).result,
    (inst0 (after (.register .timer .infrared 1 .ns4000) base)).lastLevel) = (.handle 0, 1) := by decide
theorem test_register_live : after (.register .timer .infrared 1 .ns4000) live = live := by decide
/-- The example of R158; P5 step 14. -/
theorem test_drainBegin : ((after .drainBegin base).drainLock, (after .drainBegin base).intEnable,
    (after .drainBegin base).result) = (true, true, .acquired) := by decide
theorem test_drain_nested : after .drain { live with drainLock := true } = { live with drainLock := true } := by decide
/-- The example of R160. -/
theorem test_drainStep : ((after .drainStep { queued8 7 3 with drainLock := true, drainN := 3 }).qTail,
    (after .drainStep { queued8 7 3 with drainLock := true, drainN := 3 }).result) = (4, .more) := by decide
theorem test_drainStep_done : (after .drainStep { queued8 7 4 with drainLock := true, drainN := 4 }).result = .done := by
  decide
theorem test_drainEnd : (after .drainEnd { live with drainLock := true }).drainLock = false := by decide
/-- V-CLK-1, its rows with a pending overflow. -/
theorem test_stamp : ([0x0004, 0xFFFA, 0x7FFF, 0x8000].map fun c => (after (.stamp c) { base with ovfFlag := true }).result)
    = [.time 65540, .time 65530, .time 98303, .time 32768] := by decide
theorem test_stamp_wrap :
    (after (.stamp 0) { base with overflowCount := 0xFFFF, ovfFlag := true }).result = .time 0 := by decide
/-- V-Q-1. -/
theorem test_enq : ([(7, 0), (3, 4), (0, 0), (7, 1), (6, 0)].map fun p =>
    (after (.enq capEvent0) (queued8 p.1 p.2)).qHead) = [7, 3, 1, 0, 7] := by decide
/-- V-Q-2. -/
theorem test_tickenq : (after .tickenq { live with overflowCount := 2, capIn := false }).slots
    = [(0, ⟨.timer, true, 0, 131072⟩)] := by decide
/-- V-DSP-2. -/
theorem test_dispatch : ((inst0 (after (.dispatch 0 capEvent0) (irState .idle 0 0 0))).lastTs,
    (inst0 (after (.dispatch 0 capEvent0) (irState .idle 0 0 0))).inWord,
    (inst0 (after (.dispatch 0 capEvent0) (irState .idle 0 0 0))).accTime) = (2500, .sawStart, 9000) := by decide
/-- R203: conditions 1, 2, 3 and 4, and a handled event. -/
theorem test_discard : ([(InWord.idle, (⟨.timer, true, 0, 9⟩ : EdgeEvent)), (.inData, ⟨.timer, true, 0, 9⟩),
    (.idle, ⟨.pinGroupA, false, 0, 9⟩), (.idle, ⟨.timer, false, 1, 9⟩), (.idle, ⟨.timer, false, 0, 9⟩)].map fun p =>
    (after (.discard 0 p.2) (irState p.1 0 0 0)).result)
    = [.discarded true, .discarded true, .discarded true, .discarded true, .discarded false] := by decide
/-- V-DSP-5. -/
theorem test_edgekind : ((after (.edgekind 4 0 false) base).result, (after (.edgekind 0 4 false) base).result,
    (after (.edgekind 0 0 true) base).result) = (.edge .fall, .edge .rise, .edge .tick) := by decide
/-- V-DSP-1. -/
theorem test_conv : ([(ClockRate.ns4000, 1125), (.ns4000, 8192), (.ns4000, 0xFFFFDFFF), (.ns500, 0xFFFFFFFF),
    (.ns125, 0xFFFFFFFF), (.raw4us, 40000)].map fun p => (after (.conv p.1 p.2) base).result)
    = [.converted 4500 4500, .converted 32768 32767, .converted (-32772) (-32768), .converted (-1) (-1),
       .converted 536870911 32767, .converted 40000 32767] := by decide
/-- V-IR-1 and V-IR-2: the next state of a falling edge in SawStart and in InData. -/
theorem test_fall_sawStart : ([1999, 2000, 2500, 2501, 3999, 4000, 5000, 5001, 29999, 30000].map fun d =>
    (inst0 (after (.irEdge 0 .fall d d 0) (irState .sawStart 0 0 1000))).inWord)
    = [.idle, .idle, .idle, .idle, .idle, .inData, .inData, .idle, .idle, .sawStart] := by decide
theorem test_fall_inData : ([-4, 399, 400, 799, 800, 1400, 1401, 1880, 1881, 29999, 30000].map fun d =>
    (inst0 (after (.irEdge 0 .fall d d 0) (irState .inData 5 0x15 1000))).bitAccumulator)
    = [0x15, 0x15, 0x15, 0x15, 0x15, 0x15, 0x35, 0x35, 0x15, 0x15, 0] := by decide
theorem test_irFallStart : inst0 (after (.irFallStart 0) (irState .inData 5 0x15 1000)) = irInst .sawStart 0 0 1000 := by
  decide
theorem test_irFallSync : inst0 (after (.irFallSync 0) (irState .sawStart 0 0 1000)) = irInst .inData 0 0 1000 := by
  decide
/-- V-IR-7. -/
theorem test_irFallRepeat : ([262143, 262144].map fun t =>
    (inst0 (after (.irFallRepeat 0) (irState .sawStart 0 0 t))).capturedBitCount) = [1, 0] := by decide
theorem test_irFallAbort : (after (.irFallAbort 0) (irState .inData 5 0x15 1000)).outcomes = [.timingViolation] ∧
    inst0 (after (.irFallAbort 0) (irState .inData 5 0x15 1000)) = irInst .idle 5 0x15 1000 := by decide
/-- The example of R235; V-IR-8. -/
theorem test_irFallBit : inst0 (after (.irFallBit 0 1680 7) (irState .inData 2 1 0)) = irInst .inData 3 5 0 := by decide
theorem test_irFallBit_last : (inst0 (after (.irFallBit 0 1680 17225) (irState .inData 31 0x25A5A5A5 5000)))
    = { irInst .idle 32 0xA5A5A5A5 0 with capturedMessage := 0xA5A5A5A5, capturedBitCount := 32,
                                          lastMessageTimestamp := 17225 } := by decide
theorem test_irPublish : (inst0 (after (.irPublish 0 9) (irState .inData 32 7 5000))).capturedMessage = 7 := by decide
/-- V-IR-5. -/
theorem test_irRise : ([(InWord.idle, 20000), (.sawStart, 11000), (.sawStart, 11001), (.inData, 399), (.inData, 400),
    (.inData, 1000), (.inData, 1880), (.inData, 1881)].map fun p =>
    (inst0 (after (.irRise 0 p.2) (irState p.1 0 0 0))).inWord)
    = [.idle, .sawStart, .idle, .idle, .inData, .inData, .inData, .idle] := by decide
/-- The example of R275. -/
theorem test_wgRaw : (after (.wgRaw [true, false, true, true]) base).result = .raw 11 := by decide
/-- V-WG-1 to V-WG-10, and the unlisted lengths of V-WG-11. -/
theorem test_wgCanon : ([(26, 0x2F764DD), (34, 0x1BD5B7DDF), (36, 0xDBD5B7DDF), (35, 0x55782468A), (26, 0x2000001),
    (34, 0x223C34601), (36, 0xFFFFFFFFF), (4, 0xB), (32, 0x007BB26E)].map fun p => wgCanon p.1 p.2)
    = [.cred 8106606, .cred 35928559, .cred 35928559, .cred 74565, .zero, .zero, .cred 94967295, .key 11, .noise 32] := by
  decide
theorem test_wgCanon_outcome : (after (.wgCanon 26 0) base).outcomes = [.zeroCredential] ∧
    (after (.wgCanon 27 0) base).outcomes = [.noiseMessage] := by decide
/-- R277. -/
theorem test_wgKeymap : ([0, 9, 10, 11, 12, 15].map fun c => (after (.wgKeymap c) base).result)
    = [.keyOf (some (.digit 0)), .keyOf (some (.digit 9)), .keyOf (some .star), .keyOf (some .hash), .keyOf none,
       .keyOf none] := by decide
/-- V-WG-18: a key is not sent in the 32-bit format, and is in the clock/data format. -/
theorem test_wgForward : (after (.wgForward (.key 5)) { live with xlateOption := .fmt32 }).trace = [] ∧
    (after (.wgForward (.key 0)) { live with xlateOption := .clockData }).trace.length = 275 := by decide +kernel
theorem test_emit : ((after (.emit .tx1 false) live).tx1, (after (.emit .tx1 false) live).trace)
    = (false, [.emit .tx1 false]) := by decide
/-- R302: the counts at 4000 ns. -/
theorem test_wait : ((after (.wait 40) live).T, (after (.wait 200) live).T) = (10, 50) := by decide
/-- The examples of R306 and R310. -/
theorem test_tx32Bit : (after (.tx32Bit true) live).trace = [.emit .tx1 false, .wait 40, .emit .tx1 true, .wait 200] := by
  decide
theorem test_cdBit : (after (.cdBit true) live).trace
    = [.emit .txData false, .emit .txClk false, .wait 200, .emit .txClk true, .wait 200] := by decide
/-- The sixteen patterns of R127. -/
theorem test_cdWord : ((List.range 16).map fun w => (cdWordBits (BitVec.ofNat 4 w)).map (·.toNat))
    = [[0,0,0,0,1], [1,0,0,0,0], [0,1,0,0,0], [1,1,0,0,1], [0,0,1,0,0], [1,0,1,0,1], [0,1,1,0,1], [1,1,1,0,0],
       [0,0,0,1,0], [1,0,0,1,1], [0,1,0,1,1], [1,1,0,1,0], [0,0,1,1,1], [1,0,1,1,0], [0,1,1,1,0], [1,1,1,1,1]] := by
  decide
/-- R312: the parity word of `TXCRED 8106606`, and the cells of a frame of six words. -/
theorem test_cdFrame : cdLrc [0xB, 0, 8, 1, 0, 6, 6, 0, 6, 0xF] = 0xB ∧
    (after (.cdFrame [0xB, 0xD, 1, 1, 0xD, 0xF]) live).trace.length = 5 * 55 := by decide +kernel
/-- Micro-steps: TX32 started word by word is masked from its first micro-step on (R305). -/
theorem test_start : (match step { live with stim := [.start 0x160000000001] } with
    | .next t => (t.intEnable, t.txRest.length)
    | .fault _ => (true, 0)
    | .refused _ => (true, 0)) = (false, 129) := by decide +kernel

/-! ### Witnesses: for every statement with hypotheses, a state and operands that meet them, for each of its clauses,
at the boundary values where a clause has a range. -/

/-- No operation's word has the code 0x05: it would contradict that operation's row of the table. -/
theorem no_word_of_row {i : Instr} {w value mask : SelectWord} (hs : Laws.EncodeRow.Statement i)
    (hr : Laws.EncodeRow.fixedBits i = some (value, mask)) (hn : w &&& mask ≠ value) : encode i ≠ some w := by
  intro h
  obtain ⟨r, hr', hw⟩ := hs.1 w h
  rw [hr] at hr'
  obtain rfl := Option.some.inj hr'
  exact hn hw

theorem witness_DecodeOfEncodeIsTheOperation :
    (Instr.register .pinGroupA .infrared 0x80 .ns125).wellFormed = true ∧
    encode (.register .pinGroupA .infrared 0x80 .ns125) = some 0x198300000080 ∧
    (Instr.stamp 0).wellFormed = true ∧ encode (.stamp 0) = none := ⟨rfl, rfl, rfl, rfl⟩

theorem witness_EncodeOfDecodeIsTheWord : decode 0x198300000080 = .ok (.register .pinGroupA .infrared 0x80 .ns125) := by
  rfl

theorem witness_StepRunsTheDecodedOperation :
    ({ live with stim := [.issue 0x010000000005, .resume] }).stim = .issue 0x010000000005 :: [.resume] ∧
    decode 0x010000000005 = .ok (.adv 5) ∧ 0x010000000005 < 2 ^ 48 := ⟨rfl, rfl, by decide⟩

/-- Its clauses about a word to start and about `resume`. -/
theorem witness_StepStartsAndResumes :
    ({ live with stim := [.start 0x160000000001] }.stim = .start 0x160000000001 :: [] ∧
      decode 0x160000000001 = .ok (.tx32 1) ∧
      startOp (.tx32 1) live = some { live with
        intEnable := false, txRest := pulseMicroSteps 1 ++ [.setIntEnable true] }) ∧
    (decode 0x010000000005 = .ok (.adv 5) ∧ startOp (.adv 5) live = none) ∧
    decode 0x050000000000 = .error .unlistedOp ∧ { live with stim := [.resume] }.stim = .resume :: [] :=
  ⟨⟨rfl, rfl, rfl⟩, ⟨rfl, rfl⟩, rfl, rfl⟩

theorem witness_EveryRunGoesOn : live.stim = [] := rfl

theorem witness_ReservedWordsChangeNothing :
    (∀ i : Instr, i.wellFormed = true → encode i ≠ some 0x050000000000) ∧
    (live.inst.length ≤ (0 : U8).toNat ∧ (irState .idle 0 0 0).inst.length ≤ (1 : U8).toNat) := by
  refine ⟨fun i _ => ?_, by decide⟩
  cases i with
  | reset => exact no_word_of_row Laws.EncodeRow.reset rfl (by decide)
  | adv n => exact no_word_of_row (Laws.EncodeRow.adv n) rfl (by decide)
  | capedge l => exact no_word_of_row (Laws.EncodeRow.capedge l) rfl (by decide)
  | pgaset v => exact no_word_of_row (Laws.EncodeRow.pgaset v) rfl (by decide)
  | wgpulse k => exact no_word_of_row (Laws.EncodeRow.wgpulse k) rfl (by decide)
  | isrCapt => exact no_word_of_row Laws.EncodeRow.isrCapt rfl (by decide)
  | isrPca => exact no_word_of_row Laws.EncodeRow.isrPca rfl (by decide)
  | isrWg0 => exact no_word_of_row Laws.EncodeRow.isrWg0 rfl (by decide)
  | isrWg1 => exact no_word_of_row Laws.EncodeRow.isrWg1 rfl (by decide)
  | isrTov => exact no_word_of_row Laws.EncodeRow.isrTov rfl (by decide)
  | cli => exact no_word_of_row Laws.EncodeRow.cli rfl (by decide)
  | sti => exact no_word_of_row Laws.EncodeRow.sti rfl (by decide)
  | now => exact no_word_of_row Laws.EncodeRow.now rfl (by decide)
  | drain => exact no_word_of_row Laws.EncodeRow.drain rfl (by decide)
  | irread i => exact no_word_of_row (Laws.EncodeRow.irread i) rfl (by decide)
  | wgpoll => exact no_word_of_row Laws.EncodeRow.wgpoll rfl (by decide)
  | tx32 v => exact no_word_of_row (Laws.EncodeRow.tx32 v) rfl (by decide)
  | txcred v => exact no_word_of_row (Laws.EncodeRow.txcred v) rfl (by decide)
  | txkey c => exact no_word_of_row (Laws.EncodeRow.txkey c) rfl (by decide)
  | register source protocol mask rate =>
    exact no_word_of_row (Laws.EncodeRow.register source protocol mask rate) rfl (by decide)
  | drainBegin => exact no_word_of_row Laws.EncodeRow.drainBegin rfl (by decide)
  | drainStep => exact no_word_of_row Laws.EncodeRow.drainStep rfl (by decide)
  | drainEnd => exact no_word_of_row Laws.EncodeRow.drainEnd rfl (by decide)
  | stamp | enq | tickenq | dispatch | discard | edgekind | conv | irEdge | irFallStart | irFallSync | irFallRepeat
  | irFallAbort | irFallBit | irPublish | irRise | wgRaw | wgCanon | wgKeymap | wgForward | emit | wait | tx32Bit
  | cdBit | cdWord | cdFrame => exact nofun

theorem witness_OperationCodesSelectTheirOperations :
    0x05 ∉ [0x00, 0x01, 0x02, 0x03, 0x04, 0x08, 0x09, 0x0A, 0x0B, 0x0C, 0x10, 0x11, 0x12, 0x13, 0x14, 0x15, 0x16, 0x17,
      0x18, 0x19, 0x1A, 0x1B, 0x1C] ∧ 255 < 256 ∧ 2 ^ 32 - 1 < 2 ^ 32 := by decide

theorem witness_CaptureEdgesAndWiegandPulsesPend : (false ≠ base.capIn) ∧ (true = base.capIn) := by decide

/-- A capture just before a wrap, and the longest interval that the hypotheses allow. -/
def beforeWrap : State := { live with T := 65530, hardwareCounter := 0xFFFA }
theorem witness_StampOfAnEarlierCaptureIsItsTickCount :
    let xs := [RunItem.whole (.adv 10), .whole .cli]
    (ClockInv beforeWrap ∧ (runItems xs beforeWrap).clockLost = false ∧
      (runItems xs beforeWrap).T - beforeWrap.T < 32768 ∧
      (runItems xs beforeWrap).ovfFlag = true ∧ (runItems xs beforeWrap).T % 65536 < 32768 ∧
      ∀ i, .whole i ∈ xs ∨ .start i ∈ xs → i ≠ .isrTov ∧ i ≠ .reset) ∧
    (ClockInv live ∧ (runItems [.whole (.adv 32767)] live).clockLost = false ∧
      (runItems [.whole (.adv 32767)] live).ovfFlag = false ∧
      (runItems [.whole (.adv 32767)] live).T - live.T < 32768) :=
  ⟨by refine ⟨by decide, by decide, by decide, by decide, by decide, fun i h => ?_⟩
      simp at h
      rcases h with rfl | rfl <;> decide, by decide⟩

/-- The same statement from and to the middle of a TX32, whose first Wait brings the wrap. -/
theorem witness_StampAcrossMicroSteps :
    let a := runItem (.start (.tx32 1)) beforeWrap
    let b := runItems [.resume, .resume] a
    ClockInv a ∧ b.clockLost = false ∧ b.T - a.T = 10 ∧ b.ovfFlag = true ∧ b.T % 65536 < 32768 ∧ b.txRest ≠ [] ∧
    ∀ i, RunItem.whole i ∈ [.resume, .resume] ∨ RunItem.start i ∈ [.resume, .resume] → i ≠ .isrTov ∧ i ≠ .reset :=
  ⟨by decide, by decide, by decide, by decide, by decide, by decide, fun i h => by simp at h⟩

/-- Inside a drain, a WGPOLL and a transmission (DrainLockIsTakenOnceAndReleased, DrainStepDispatchesTheOldestEvent,
DrainDispatchesInOrderUpToTheBound, IrreadReturnsTheMessageOnce: their blocked clauses). -/
theorem witness_Blocked :
    (¬ BetweenOperations { live with drainLock := true } ∧ live.drainLock = false) ∧
    ({ live with wgTaken := some [true] }.wgTaken ≠ none ∧ ¬ BetweenOperations { live with wgTaken := some [true] }) ∧
    ({ live with txRest := [.item (.wait 40)] }.txRest ≠ [] ∧
      ¬ BetweenOperations { live with txRest := [.item (.wait 40)] }) := by decide

/-- NowReturnsTheStampOfTheCounter, CliMasksEveryServiceAndStiUnmasks, TxkeySendsSixWordsWithTheTwoSlots and every other
statement about an operation between or inside composite operations. -/
theorem witness_BetweenOperations : BetweenOperations live ∧ ¬ BetweenOperations { live with drainLock := true } ∧
    ¬ BetweenOperations { live with txRest := [.item (.wait 40)] } ∧
    ¬ BetweenOperations { live with wgTaken := some [true] } := by decide

theorem witness_ServiceRunsExactlyWhenEnabled :
    let p := { live with pendCapt := true, pendPca := true, pendWg0 := true, pendWg1 := true, ovfFlag := true }
    let a := { p with pendCapt := false }
    let b := { a with pendPca := false }
    let c := { b with pendWg0 := false }
    let d := { c with pendWg1 := false }
    (p.intEnable = true ∧ p.pendCapt = true) ∧ (a.pendPca = true ∧ a.pendCapt = false) ∧
    (b.pendWg0 = true ∧ b.pendCapt = false ∧ b.pendPca = false) ∧
    (c.pendWg1 = true ∧ c.pendWg0 = false ∧ c.pendCapt = false ∧ c.pendPca = false) ∧
    (d.ovfFlag = true ∧ d.pendWg1 = false ∧ d.pendWg0 = false ∧ d.pendCapt = false ∧ d.pendPca = false) ∧
    ¬ (base.intEnable = true) := by decide

theorem witness_IsrCaptEnqueuesLevelAndLatchTime :
    (QueueInv { live with pendCapt := true } ∧ { live with pendCapt := true }.intEnable = true) ∧
    (QueueInv { queued8 7 0 with pendCapt := true } ∧ { queued8 7 0 with pendCapt := true }.intEnable = true) := by decide

theorem witness_IsrPcaEnqueuesLevelsAndServiceTime :
    QueueInv pcaPending ∧ pcaPending.intEnable = true ∧ pcaPending.pendPca = true ∧ pcaPending.pendCapt = false := by
  decide

theorem witness_IsrWgAppendsItsBitAndRestartsTheTimeout :
    (pulse0.intEnable = true ∧ pulse0.pendCapt = false ∧ pulse0.pendPca = false ∧ pulse0.pendWg0 = true) ∧
    (pulse71.intEnable = true ∧ pulse71.pendCapt = false ∧ pulse71.pendPca = false ∧ pulse71.pendWg0 = false ∧
      pulse71.pendWg1 = true) := by decide

theorem witness_IsrTovCountsTheWrapAndOffersATick :
    let e := { live with ovfFlag := true }
    let f := { queued8 7 0 with ovfFlag := true }
    (QueueInv e ∧ e.intEnable = true ∧ e.ovfFlag = true ∧ e.pendCapt = false ∧ e.pendPca = false ∧ e.pendWg0 = false ∧
      e.pendWg1 = false ∧ e.qHead = e.qTail) ∧
    (QueueInv f ∧ f.intEnable = true ∧ f.ovfFlag = true ∧ f.pendCapt = false ∧ f.pendPca = false ∧ f.pendWg0 = false ∧
      f.pendWg1 = false ∧ f.qHead ≠ f.qTail) := by decide

/-- EnqAppendsOrDropsTheNewest, TickenqOnlyWhileTheQueueIsEmpty: a full, a nearly full and an empty queue. -/
theorem witness_QueueInv :
    (QueueInv (queued8 7 0) ∧ (7 + 1) % qcap (queued8 7 0).cfg = (queued8 7 0).qTail) ∧
    (QueueInv (queued8 6 0) ∧ (6 + 1) % qcap (queued8 6 0).cfg ≠ (queued8 6 0).qTail) ∧
    (QueueInv live ∧ live.qHead = live.qTail) ∧ (queued8 7 0).qHead ≠ (queued8 7 0).qTail := by decide

theorem witness_DrainLockIsTakenOnceAndReleased :
    (live.wgTaken = none ∧ live.txRest = [] ∧ live.drainLock = false) ∧
    { live with drainLock := true }.drainLock = true := by decide

theorem witness_DrainStepDispatchesTheOldestEvent :
    let d := { queued8 7 3 with drainLock := true, drainN := 3 }
    (QueueInv d ∧ d.wgTaken = none ∧ d.txRest = [] ∧ d.drainLock = true ∧ d.drainN ≠ d.cfg.drainMax ∧ d.qHead ≠ d.qTail) ∧
    (QueueInv { d with drainN := 4 } ∧ { d with drainN := 4 }.drainN = d.cfg.drainMax) ∧
    (QueueInv { d with qTail := 7 } ∧ { d with qTail := 7 }.qHead = { d with qTail := 7 }.qTail) ∧
    (QueueInv live ∧ live.drainLock = false) := by decide

theorem witness_DrainDispatchesInOrderUpToTheBound :
    (QueueInv (queued8 7 0) ∧ BetweenOperations (queued8 7 0) ∧ (queued (queued8 7 0)).length = 7) ∧
    (QueueInv (queued8 3 0) ∧ BetweenOperations (queued8 3 0) ∧ (queued (queued8 3 0)).length = 3) := by decide

theorem witness_RegisterAppendsAnInstanceDuringSetup :
    ((0x80 : U8) = BitVec.ofNat 8 (2 ^ 7) ∧ (1 : U8) = BitVec.ofNat 8 (2 ^ 0)) ∧
    (base.setup = true ∧ base.intEnable = false ∧ base.inst.length < base.cfg.nInst ∧ BetweenOperations base) ∧
    (¬ (live.setup = true)) ∧
    ¬ ({ base with inst := List.replicate 4 (irInst .idle 0 0 0) }.inst.length < base.cfg.nInst) := by decide

/-- DiscardTestsTheFourConditions, DispatchRecordsThenHandles: an instance, an event that it discards under each
condition, and one that it handles. -/
theorem witness_DispatchRecordsThenHandles :
    let I := irInst .idle 0 0 0
    (irState .idle 0 0 0).inst[0]? = some I ∧
    (⟨.timer, true, 0, 9⟩ : EdgeEvent).tick = true ∧ (⟨.pinGroupA, false, 0, 9⟩ : EdgeEvent).source ≠ I.source ∧
    (⟨.timer, false, 1, 9⟩ : EdgeEvent).level &&& I.mask = I.lastLevel ∧
    (capEvent0.tick = false ∧ capEvent0.source = I.source ∧ capEvent0.level &&& I.mask ≠ I.lastLevel) := by decide

theorem witness_DispatchesToTwoInstancesCommute : (0 : Nat) ≠ 1 := by decide

theorem witness_EdgekindNamesTheTransition :
    ((4 : U8) ≠ 0 ∧ (0 : U8) = 0) ∧ oneBit 4 = true ∧ ((0 : U8) = 0 ∨ (0 : U8) = 4) ∧ ((4 : U8) = 0 ∨ (4 : U8) = 4) ∧
    (4 : U8) ≠ 0 := by decide

theorem witness_ConvScalesFloorsAndClamps :
    (convUnits .ns4000 0xFFFFE000 = -32768 ∧ convUnits .ns4000 0xFFFFDFFF < -32768) ∧
    (convUnits .ns500 65534 = 32767 ∧ 32767 < convUnits .ns500 65536) ∧
    (convUnits .raw4us 0x80000000 = -2147483648 ∧ convUnits .ns125 0x80000000 = 268435456) := by decide

/-- The rows of the transition table: one instance for each state, and at the ends of each row's range. -/
theorem witness_InfraredTransitionTable :
    let idle := irInst .idle 0 0 0
    let saw := irInst .sawStart 0 0 0
    let data := irInst .inData 30 0 0
    let last := irInst .inData 31 0 0
    (∀ J ∈ [idle, saw, data, last], (irState J.inWord J.bitsReceived J.bitAccumulator J.accTime).inst[0]? = some J) ∧
    (idle.inWord = .idle ∧ saw.inWord = .sawStart ∧ data.inWord = .inData ∧ data.bitsReceived ≠ 31 ∧
      last.bitsReceived = 31) ∧
    ((accAfter 262143 0).toNat < 262144 ∧ 262144 ≤ (accAfter 262143 1).toNat) ∧
    (∀ d ∈ [(4000 : Int), 5000], 4000 ≤ d ∧ d ≤ 5000) ∧ (∀ d ∈ [(2000 : Int), 2500], 2000 ≤ d ∧ d ≤ 2500) ∧
    (∀ d ∈ [(1999 : Int), 2501, 3999, 5001, 29999],
      d < 30000 ∧ ¬ (4000 ≤ d ∧ d ≤ 5000) ∧ ¬ (2000 ≤ d ∧ d ≤ 2500)) ∧
    (∀ d ∈ [(400 : Int), 799, 1401, 1880], (400 ≤ d ∧ d ≤ 799) ∨ (1401 ≤ d ∧ d ≤ 1880)) ∧
    (∀ d ∈ [(399 : Int), 800, 1400, 1881, 29999], d < 400 ∨ (800 ≤ d ∧ d ≤ 1400) ∨ (1881 ≤ d ∧ d < 30000)) := by
  decide

/-- InfraredFallingEdgeArms, InfraredRiseOnlyAborts. -/
theorem witness_InfraredArms :
    let J := irInst .inData 31 0 262143
    (irState .inData 31 0 262143).inst[0]? = some J ∧ J.bitsReceived = 31 ∧ J.accTime.toNat < 262144 ∧
    262144 ≤ (irInst .idle 0 0 262144).accTime.toNat ∧ (irInst .inData 30 0 0).bitsReceived ≠ 31 ∧
    (∀ d ∈ [(399 : Int), 1881, 11001], (J.inWord ≠ .idle ∧ 11000 < d) ∨ (J.inWord = .inData ∧ (d < 400 ∨ 1880 < d))) ∧
    (∀ d ∈ [(400 : Int), 1880], ¬ ((J.inWord ≠ .idle ∧ 11000 < d) ∨ (J.inWord = .inData ∧ (d < 400 ∨ 1880 < d)))) := by
  decide

/-- The gaps at the ends of both bands, with a message of both bits. -/
theorem witness_ThirtyTwoDataEdgesPublishTheMessage :
    let gap := fun k => if (0xA5A5A5A5 : U32).getLsbD k then (if k < 8 then 1401 else 1880) else if k < 8 then (400 : Int) else 799
    (irState .inData 0 0 0).inst[0]? = some (irInst .inData 0 0 0) ∧
    ∀ k < 32, if (0xA5A5A5A5 : U32).getLsbD k then 1401 ≤ gap k ∧ gap k ≤ 1880 else 400 ≤ gap k ∧ gap k ≤ 799 := by
  decide

theorem witness_IrreadReturnsTheMessageOnce :
    ({ live with inst := [captured] }.inst[(0 : U8).toNat]? = some captured ∧ captured.capturedBitCount ≠ 0 ∧
      BetweenOperations { live with inst := [captured] }) ∧
    ((irState .idle 0 0 0).inst[(0 : U8).toNat]? = some (irInst .idle 0 0 0) ∧
      (irInst .idle 0 0 0).capturedBitCount = 0 ∧ BetweenOperations (irState .idle 0 0 0)) := by decide

theorem witness_WgCanonByLength : 15 < 2 ^ 4 ∧ 0x2F764DD < 2 ^ 26 ∧ 0x1BD5B7DDF < 2 ^ 34 ∧ 0x55782468A < 2 ^ 35 ∧
    0xFFFFFFFFF < 2 ^ 36 ∧ 0x007BB26E < 2 ^ 32 := by decide

theorem witness_WgKeymapNamesTheKey : ((9 : U4).toNat = (9 : Fin 10).val) ∧ 12 ≤ (12 : U4).toNat ∧ 12 ≤ (15 : U4).toNat := by
  decide

theorem witness_WgForwardByTranslationOption :
    (BetweenOperations live ∧ live.xlateOption = .none) ∧
    (BetweenOperations { live with xlateOption := .fmt32 } ∧ { live with xlateOption := .fmt32 }.xlateOption = .fmt32) ∧
    (BetweenOperations { live with xlateOption := .clockData } ∧
      { live with xlateOption := .clockData }.xlateOption = .clockData) := by decide

theorem witness_WgpollTakesAMessageAfterTheTimeout :
    let elapsed := fun s : State => (timestampAt s s.hardwareCounter - s.wgLastTs).toNat
    (BetweenOperations (fourBits 6999) ∧ elapsed (fourBits 6999) < timeoutTicks work.tick) ∧
    (BetweenOperations (fourBits 7000) ∧ (fourBits 7000).wgBits ≠ [] ∧
      timeoutTicks work.tick ≤ elapsed (fourBits 7000)) ∧
    (live.wgBits = [] ∧ ¬ BetweenOperations { live with drainLock := true }) := by decide

/-- The message of V-WG-1, at the end of the timeout. -/
def wg26 : State :=
  { live with wgBits := (List.range 26).map fun j => (0x2F764DD : Nat).testBit (25 - j), hardwareCounter := 5000 }
theorem witness_TwentySixBitsGiveTheCredential :
    BetweenOperations wg26 ∧ wg26.wgBits.length = 26 ∧ 0x2F764DD < 2 ^ 26 ∧
    (∀ j (h : j < wg26.wgBits.length), (0x2F764DD : Nat).testBit (25 - j) = wg26.wgBits[j]) ∧
    timeoutTicks wg26.cfg.tick ≤ (timestampAt wg26 wg26.hardwareCounter - wg26.wgLastTs).toNat := by decide

theorem witness_EmitDrivesItsLineAndWaitHolds : 40 * 1000 = 10 * periodNs live.cfg.tick ∧
    200 * 1000 = 50 * periodNs live.cfg.tick ∧ 0 * 1000 = 0 * periodNs live.cfg.tick := by decide

/-- Tx32ReadsBackThroughWgRaw too. -/
theorem witness_Tx32SendsTheBitsMostSignificantFirst :
    BetweenOperations live ∧ live.tx0 = true ∧ live.tx1 = true ∧ (0x80000000 : U32) ≠ 0 ∧ (0 : U32) = 0 := by decide

theorem witness_TxcredSendsTheEightDigits : (8106606 : U32).toNat % 100000000 ≠ 0 ∧
    (99999999 : U32).toNat % 100000000 ≠ 0 ∧ (100000000 : U32).toNat % 100000000 = 0 := by decide

/-- MicroStepsMakeTheWholeOperation: an operation of each kind that starts. -/
theorem witness_MicroStepsMakeTheWholeOperation :
    BetweenOperations live ∧ Instr.tx32 1 ≠ .drain ∧ (startOp (.tx32 1) live).isSome = true ∧
    exec (.tx32 1) live = .next (after (.tx32 1) live) ∧ BetweenOperations (fourBits 7000) ∧
    (startOp .wgpoll (fourBits 7000)).isSome = true ∧ exec .wgpoll (fourBits 7000) = .next (after .wgpoll (fourBits 7000)) :=
  ⟨by decide, by decide, rfl, rfl, by decide, rfl, rfl⟩

/-- The grain clauses of MicroStepsMakeTheWholeOperation: the take before the timeout and at it, a message taken, a
transmission in progress. -/
theorem witness_MicroStepGrain :
    let elapsed := fun s : State => (timestampAt s s.hardwareCounter - s.wgLastTs).toNat
    let taken := { live with wgTaken := some [true] }
    (BetweenOperations (fourBits 6999) ∧ elapsed (fourBits 6999) < timeoutTicks (fourBits 6999).cfg.tick) ∧
    (BetweenOperations (fourBits 7000) ∧ (fourBits 7000).wgBits ≠ [] ∧
      timeoutTicks (fourBits 7000).cfg.tick ≤ elapsed (fourBits 7000)) ∧
    (taken.wgTaken = some [true] ∧ taken.txRest = [] ∧ taken.drainLock = false) ∧
    live.wgTaken = none ∧ { live with txRest := [.item (.wait 40)] }.wgTaken = none ∧
    ¬ BetweenOperations { live with txRest := [.item (.wait 40)] } := by decide

/-- A taken credential is forwarded as TX32, masked from that micro-step on (R273, R278, R305). -/
theorem test_forwarded_tx32_starts_masked :
    let t := resume { wg26 with xlateOption := .fmt32, wgTaken := some wg26.wgBits, wgBits := [] }
    (t.intEnable, t.txRest.length, t.trace, t.result) = (false, 129, [], .wiegand (.cred 8106606)) := by decide +kernel

theorem witness_ContextsWriteOnlyWhatTheyOwn :
    exec .wgpoll live = .next (after .wgpoll live) ∧ Instr.agent .wgpoll = .poll ∧ Instr.wgpoll ≠ .reset ∧
    exec .isrWg0 pulse0 = .next (after .isrWg0 pulse0) ∧ Instr.agent .isrWg0 = .irq ∧
    exec (.adv 1) live = .next (after (.adv 1) live) ∧ Instr.agent (.adv 1) = .env ∧
    startOp .wgpoll live = some (after .wgpoll live) :=
  ⟨rfl, rfl, by decide, rfl, rfl, rfl, rfl, rfl⟩

/-- The clauses of EveryStepKeepsTheWiegandInvariant about the provider, during and after setup. -/
theorem witness_ConfigureDuringAndAfterSetup :
    ({ base with stim := [.configure 0] }.stim = .configure 0 :: [] ∧
      { base with stim := [.configure 0] }.setup = true) ∧
    ({ live with stim := [.configure (-1)] }.stim = .configure (-1) :: [] ∧
      { live with stim := [.configure (-1)] }.setup = false) := by decide

/-- A state in mid-frame, with events queued and bits received, about to issue ADV 5: it meets the invariants of the
EveryStepKeeps statements, and its step answers a next state. -/
def busy : State :=
  { queued8 7 0 with inst := [irInst .inData 5 0x15 1000], wgBits := [true], stim := [.issue 0x010000000005] }
theorem witness_EveryStepKeeps :
    ClockInv busy ∧ QueueInv busy ∧ (∀ I ∈ busy.inst, IrInv I) ∧ RegistryInv busy ∧ WiegandInv busy ∧
    (PollInv busy) ∧ step busy = .next (after (.adv 5) { busy with stim := [] }) :=
  ⟨by decide, by decide, by decide, by decide, by simp only [WiegandInv]; exact ⟨by decide, nofun⟩,
   ⟨by decide, by decide, ⟨[], .inl rfl⟩, by decide⟩, rfl⟩

/-- The polling invariant holds inside a TX32 too: its first line is low and interrupts are masked. -/
def sending : State :=
  { live with intEnable := false, tx1 := false, stim := [.resume]
              txRest := (tx32Items 0x80000000).tail.map .item ++ [.setIntEnable true] }
theorem witness_EveryStepKeepsThePollingInvariant :
    PollInv sending ∧ step sending = .next (resume { sending with stim := [] }) ∧
    (BetweenOperations live ∧ (0x80000000 : U32) ≠ 0) :=
  ⟨⟨fun h => absurd rfl h, fun _ => rfl, ⟨(tx32Items 0x80000000).tail, .inr ⟨rfl, rfl⟩⟩, by decide +kernel⟩, rfl,
   by decide⟩

end Sys2Proof.Tests
end

/-! What a step of each agent can change, said once for the environment, the interrupt services, the polling
context (RESET apart) and the machine's step: its frame. -/

namespace Sys2Proof.Machine

/-! ### What words select -/

theorem decodePlain_agent {i j : Instr} {a : U8} {b : U32} (hi : i.agent ≠ .sub) (h : decodePlain i a b = .ok j) :
    j.agent ≠ .sub := by
  unfold decodePlain at h
  split at h
  · cases h; exact hi
  · cases h

theorem decodeB_agent {f : U32 → Instr} {j : Instr} {a : U8} {b : U32} (hf : ∀ n, (f n).agent ≠ .sub)
    (h : decodeB f a b = .ok j) : j.agent ≠ .sub := by
  unfold decodeB at h
  split at h
  · cases h; exact hf b
  · cases h

theorem decodeA_agent {f : U8 → Instr} {j : Instr} {a : U8} {b : U32} (hf : ∀ n, (f n).agent ≠ .sub)
    (h : decodeA f a b = .ok j) : j.agent ≠ .sub := by
  unfold decodeA at h
  split at h
  · cases h; exact hf a
  · cases h

theorem decodeBit_agent {f : Bool → Instr} {j : Instr} {a : U8} {b : U32} (hf : ∀ l, (f l).agent ≠ .sub)
    (h : decodeBit f a b = .ok j) : j.agent ≠ .sub := by
  unfold decodeBit at h
  split at h
  · cases h; exact hf _
  · cases h

theorem decodeKey_agent {j : Instr} {a : U8} {b : U32} (h : decodeKey a b = .ok j) : j.agent = .poll := by
  unfold decodeKey at h
  split at h
  · split at h
    · cases h; rfl
    · cases h
  · cases h

theorem decodeRegister_agent {j : Instr} {a : U8} {b : U32} (h : decodeRegister a b = .ok j) : j.agent = .poll := by
  unfold decodeRegister at h
  split at h
  · split at h
    · split at h
      · cases h; rfl
      · cases h
    · cases h
  · cases h

/-- No word selects a sub-operation (R100). -/
theorem decode_agent {w : SelectWord} {i : Instr} (h : decode w = .ok i) : i.agent ≠ .sub := by
  unfold decode decodeFields at h
  split at h
  -- ADV, TX32 and TXCRED; CAPEDGE and WGPULSE; PGASET and IRREAD; TXKEY; REGISTER; an unlisted code; all others
  case h_2 | h_17 | h_18 => exact decodeB_agent (fun _ => by simp [Instr.agent]) h
  case h_3 | h_5 => exact decodeBit_agent (fun _ => by simp [Instr.agent]) h
  case h_4 | h_15 => exact decodeA_agent (fun _ => by simp [Instr.agent]) h
  case h_19 => rw [decodeKey_agent h]; decide
  case h_20 => rw [decodeRegister_agent h]; decide
  case h_24 => cases h
  all_goals exact decodePlain_agent (by decide) h

/-! ### Composing advances of the clock -/

theorem adv_zero (s : State) : adv 0 s = s := by
  have hw : s.hardwareCounter.toNat / 65536 = 0 := Nat.div_eq_of_lt s.hardwareCounter.isLt
  simp [adv, hw]

/-- ADV twice is ADV of the sum: a wrap of the whole is a wrap of one part, and a second one finds the flag set. -/
theorem adv_adv (m n : Nat) (s : State) : adv m (adv n s) = adv (n + m) s := by
  have hc : s.hardwareCounter.toNat < 65536 := s.hardwareCounter.isLt
  have wraps : (s.hardwareCounter.toNat + (n + m)) / 65536 =
      (s.hardwareCounter.toNat + n) / 65536 + ((s.hardwareCounter.toNat + n) % 65536 + m) / 65536 := by omega
  unfold adv
  simp only [BitVec.toNat_ofNat, wraps]
  generalize (s.hardwareCounter.toNat + n) / 65536 = x
  generalize ((s.hardwareCounter.toNat + n) % 65536 + m) / 65536 = y
  congr 1
  case e_hardwareCounter => apply BitVec.eq_of_toNat_eq; simp only [BitVec.toNat_ofNat]; omega
  case e_ovfFlag => grind
  case e_T => exact Nat.add_assoc _ _ _
  case e_clockLost => grind

theorem field_of_adv {α : Type} {s t : State} (f : State → α) (hf : ∀ n u, f (adv n u) = f u)
    (h : ∃ n, t = adv n s) : f t = f s := by
  obtain ⟨n, rfl⟩ := h
  exact hf n s

/-! ### The polling context -/

/-- `s` without the fields that the polling context writes: blanked, so that two states that agree on the others
become equal. The clock stays in, for a transmission's waits advance it. -/
def blankPolling (s : State) : State :=
  { s with intEnable := false, qTail := 0, drainLock := false, drainN := 0, inst := [], wgBits := [], wgDiagLen := 0,
           wgDiagTs := 0, tx0 := true, tx1 := true, txClk := true, txData := true, trace := [], setup := false,
           wgTaken := none, txRest := [], result := .none, outcomes := [] }

/-- What a polling operation other than RESET, or a micro-step of one, can do outside the fields of the polling
context: let time pass, empty `wg_bits`, and hold the bits it took. -/
structure PollFrame (s t : State) : Prop where
  rest  : ∃ n, blankPolling t = adv n (blankPolling s)
  bits  : t.wgBits = s.wgBits ∨ t.wgBits = []
  taken : ∀ msg, t.wgTaken = some msg → s.wgTaken = some msg ∨ (msg = s.wgBits ∧ msg ≠ [])

/-- A field that the polling context leaves alone and that is not the clock's is as it was. -/
theorem PollFrame.field {α : Type} {s t : State} (h : PollFrame s t) (f : State → α)
    (hf : ∀ n u, f (adv n u) = f u) : f (blankPolling t) = f (blankPolling s) :=
  field_of_adv f hf h.rest

/-- A change of the polling context's own fields alone. -/
theorem PollFrame.of_blank_eq {s t : State} (h : blankPolling t = blankPolling s) (hb : t.wgBits = s.wgBits)
    (ht : t.wgTaken = s.wgTaken) : PollFrame s t :=
  ⟨⟨0, by rw [h, adv_zero]⟩, .inl hb, fun _ hm => .inl (ht ▸ hm)⟩

theorem PollFrame.refl (s : State) : PollFrame s s := .of_blank_eq rfl rfl rfl

theorem PollFrame.trans {s t u : State} (h : PollFrame s t) (k : PollFrame t u) : PollFrame s u := by
  obtain ⟨⟨n, hn⟩, hb, ht⟩ := h
  obtain ⟨⟨m, hm⟩, kb, kt⟩ := k
  refine ⟨⟨n + m, by rw [hm, hn, adv_adv]⟩, ?_, fun msg hmsg => ?_⟩
  · rcases kb with kb | kb
    · rw [kb]; exact hb
    · exact .inr kb
  · rcases kt msg hmsg with h' | ⟨rfl, hne⟩
    · exact ht msg h'
    · rcases hb with hb | hb
      · rw [hb] at hne ⊢; exact .inr ⟨rfl, hne⟩
      · exact absurd hb hne

/-- A polling operation keeps the frame where its effect does. -/
theorem PollFrame.whenever {f : State → State} {s : State} (b : Bool) (h : PollFrame s (f s)) :
    PollFrame s (whenever b f s) := by
  cases b
  · exact .refl s
  · exact h

theorem pollFrame_irReadAt (i : Nat) (s : State) : PollFrame s (irReadAt i s) := by
  unfold irReadAt
  split
  · exact .refl s
  · exact .of_blank_eq rfl rfl rfl

theorem pollFrame_drainBegin (s : State) : PollFrame s (drainBegin s).1 := by
  unfold drainBegin
  split
  · exact .refl s
  · exact .of_blank_eq rfl rfl rfl

theorem pollFrame_dispatchAll (e : EdgeEvent) (s : State) : PollFrame s (dispatchAll e s) := by
  obtain ⟨is, os, h, -⟩ := dispatchAll_eq e s
  rw [h]
  exact .of_blank_eq rfl rfl rfl

theorem pollFrame_drainStep (s : State) : PollFrame s (drainStep s).1 := by
  rcases drainStep_cases s with ⟨-, h⟩ | ⟨-, -, h⟩
  · rw [h]; exact .refl s
  · rw [h]
    refine .trans ?_ (pollFrame_dispatchAll _ _)
    exact .of_blank_eq rfl rfl rfl

theorem pollFrame_drain (s : State) : PollFrame s (drain s) := by
  unfold drain
  split
  · have loop := drainLoop_invariant (P := PollFrame s) (fun t h => h.trans (pollFrame_drainStep t)) s.cfg.drainMax _
      (pollFrame_drainBegin s)
    exact loop.trans (.of_blank_eq rfl rfl rfl)
  · exact pollFrame_drainBegin s

theorem pollFrame_txStep (t : TxStep) (s : State) : PollFrame s (txStep t s) := by
  match t with
  | .item (.emit sig lvl) => cases sig <;> exact .of_blank_eq rfl rfl rfl
  | .item (.wait us) => exact ⟨⟨waitTicks s.cfg us, rfl⟩, .inl rfl, fun _ h => .inl h⟩
  | .setIntEnable b => exact .of_blank_eq rfl rfl rfl
  | .record o => exact .of_blank_eq rfl rfl rfl

theorem pollFrame_txRun (ts : List TxStep) (s : State) : PollFrame s (txRun ts s) :=
  txRun_invariant (P := PollFrame s) (fun t u h => h.trans (pollFrame_txStep t u)) ts s (.refl s)

theorem pollFrame_txStart (ts : List TxStep) (s : State) : PollFrame s (txStart ts s) := by
  cases ts with
  | nil => exact .refl s
  | cons t rest => exact .trans (pollFrame_txStep t s) (.of_blank_eq rfl rfl rfl)

theorem wgBits_ne_nil_of_wgComplete {s : State} (h : wgComplete s = true) : s.wgBits ≠ [] := by
  simp only [wgComplete, Bool.and_eq_true, decide_eq_true_eq] at h
  exact List.ne_nil_of_length_pos h.1

/-- The take empties `wg_bits` or leaves them. -/
theorem pollFrame_wgTake (s : State) : PollFrame s (wgTake s).1 := by
  rcases wgTake_cases s with ⟨-, h⟩ | ⟨-, h⟩
  · rw [h]; exact ⟨⟨0, (adv_zero _).symm⟩, .inr rfl, fun _ hm => .inl hm⟩
  · rw [h]; exact .of_blank_eq rfl rfl rfl

theorem pollFrame_wgPoll (s : State) : PollFrame s (wgPoll s) := by
  have take := pollFrame_wgTake s
  unfold wgPoll
  split
  next t h => rw [h] at take; exact take.trans (.of_blank_eq rfl rfl rfl)
  next t msg h =>
    rw [h] at take
    have conclude : PollFrame t (wgConclude msg t) := .of_blank_eq rfl rfl rfl
    exact (take.trans conclude).trans (pollFrame_txRun _ _)

/-- What WGPOLL holds after its take is the non-empty buffer. -/
theorem pollFrame_wgStart (s : State) : PollFrame s (wgStart s) := by
  unfold wgStart
  rcases wgTake_cases s with ⟨hc, h⟩ | ⟨-, h⟩
  · rw [h]
    refine ⟨⟨0, (adv_zero _).symm⟩, .inr rfl, fun msg hm => .inr ?_⟩
    obtain rfl : s.wgBits = msg := Option.some.inj hm
    exact ⟨rfl, wgBits_ne_nil_of_wgComplete hc⟩
  · rw [h]; exact .of_blank_eq rfl rfl rfl

theorem pollFrame_resume (s : State) : PollFrame s (resume s) := by
  unfold resume
  split
  next msg _ =>
    have conclude : PollFrame s { wgConclude msg s with wgTaken := none } :=
      ⟨⟨0, (adv_zero _).symm⟩, .inl rfl, nofun⟩
    exact conclude.trans (pollFrame_txStart _ _)
  next =>
    split
    · exact .refl s
    · refine .trans ?_ (pollFrame_txStep _ _)
      exact .of_blank_eq rfl rfl rfl

/-- The frame of every polling operation but RESET. -/
theorem exec_poll_frame {i : Instr} {s t : State} (hi : i.agent = .poll) (hr : i ≠ .reset) (h : exec i s = .next t) :
    PollFrame s t := by
  cases i with
  | reset => exact absurd rfl hr
  | cli | sti | now | register | drainEnd => cases h; exact .whenever _ (.of_blank_eq rfl rfl rfl)
  | drain => cases h; exact .whenever _ (pollFrame_drain s)
  | drainBegin => cases h; exact .whenever _ (.trans (pollFrame_drainBegin s) (.of_blank_eq rfl rfl rfl))
  | drainStep => cases h; exact .whenever _ (.trans (pollFrame_drainStep s) (.of_blank_eq rfl rfl rfl))
  | irread k => cases h; exact .whenever _ (pollFrame_irReadAt _ s)
  | wgpoll => cases h; exact .whenever _ (pollFrame_wgPoll s)
  | tx32 | txcred | txkey => cases h; exact .whenever _ (pollFrame_txRun _ s)
  | _ => cases hi

/-- The frame of the first micro-step of a composite operation. -/
theorem startOp_frame {i : Instr} {s t : State} (h : startOp i s = some t) : PollFrame s t := by
  cases i with
  | tx32 | txcred | txkey => cases h; exact .whenever _ (pollFrame_txStart _ s)
  | wgpoll => cases h; exact .whenever _ (pollFrame_wgStart s)
  | drain => cases h; exact .whenever _ (pollFrame_drainBegin s)
  | _ => cases h

/-- Only polling operations have micro-steps. -/
theorem agent_of_startOp {i : Instr} {s t : State} (h : startOp i s = some t) : i.agent = .poll := by
  cases i with
  | tx32 | txcred | txkey | wgpoll | drain => rfl
  | _ => cases h

/-! ### The interrupt services -/

/-- `s` without the fields that an interrupt service writes. -/
def blankIrq (s : State) : State :=
  { s with ovfFlag := false, overflowCount := 0, intEnable := false, pendCapt := false, pendPca := false,
           pendWg0 := false, pendWg1 := false, slots := [], qHead := 0, wgBits := [], wgLastTs := 0, outcomes := [] }

/-- What an interrupt service can do outside the fields it writes freely: append one bit to a buffer that is not
full, and move the overflow flag into the overflow count. -/
structure IrqFrame (s t : State) : Prop where
  rest : blankIrq t = blankIrq s
  bits : t.wgBits = s.wgBits ∨ (s.wgBits.length < 70 ∧ ∃ b, t.wgBits = s.wgBits ++ [b])
  wrap : (t.overflowCount = s.overflowCount ∧ t.ovfFlag = s.ovfFlag) ∨
    (s.ovfFlag = true ∧ t.overflowCount = s.overflowCount + 1 ∧ t.ovfFlag = false)

theorem IrqFrame.field {α : Type} {s t : State} (h : IrqFrame s t) (f : State → α) :
    f (blankIrq t) = f (blankIrq s) :=
  congrArg f h.rest

theorem IrqFrame.refl (s : State) : IrqFrame s s := ⟨rfl, .inl rfl, .inl ⟨rfl, rfl⟩⟩

theorem irqFrame_enq (e : EdgeEvent) (s : State) : IrqFrame s (enq e s) := by
  rw [enq_eq]
  exact ⟨rfl, .inl rfl, .inl ⟨rfl, rfl⟩⟩

theorem irqFrame_wgBody (b : Bool) (s : State) : IrqFrame s (wgBody b s) := by
  refine ⟨rfl, ?_, .inl ⟨rfl, rfl⟩⟩
  by_cases room : s.wgBits.length < Config.wgMaxBits
  · exact .inr ⟨room, b, if_pos room⟩
  · exact .inl (if_neg room)

theorem irqFrame_tovBody {s : State} (h : s.ovfFlag = true) : IrqFrame s (tovBody s) := by
  rw [tovBody, tickEnq_eq]
  exact ⟨rfl, .inl rfl, .inr ⟨h, rfl, rfl⟩⟩

/-- Entry and exit stay within the frame, so a service does where its body does. -/
theorem irqFrame_service {src : IrqSource} {body : State → State} {s : State}
    (h : irqPending src s = true → IrqFrame (irqEnter src s) (body (irqEnter src s))) :
    IrqFrame s (service src body s) := by
  rcases service_cases src body s with ⟨enabled, hs⟩ | ⟨-, hs⟩
  · simp only [irqEnabled, Bool.and_eq_true] at enabled
    obtain ⟨rest, bits, wrap⟩ := h enabled.1.2
    rw [hs]
    refine ⟨rest.trans ?_, ?_, ?_⟩
    · cases src <;> rfl
    · simpa using bits
    · simpa using wrap
  · rw [hs]; exact .refl s

/-- The frame of every interrupt service. -/
theorem exec_irq_frame {i : Instr} {s t : State} (hi : i.agent = .irq) (h : exec i s = .next t) : IrqFrame s t := by
  cases i with
  | isrCapt | isrPca => cases h; exact irqFrame_service fun _ => irqFrame_enq _ _
  | isrWg0 | isrWg1 => cases h; exact irqFrame_service fun _ => irqFrame_wgBody _ _
  | isrTov => cases h; exact irqFrame_service fun pending => irqFrame_tovBody pending
  | _ => cases hi

/-! ### The environment -/

/-- `s` without the inputs, the capture latch and the pending bits. -/
def blankEnv (s : State) : State :=
  { s with pendCapt := false, pendPca := false, pendWg0 := false, pendWg1 := false, icr := 0, capIn := true,
           pgaIn := 0 }

/-- What an operation of the environment can do outside the inputs and the latch: let time pass and set pending bits. -/
structure EnvFrame (s t : State) : Prop where
  rest     : ∃ n, blankEnv t = adv n (blankEnv s)
  pendCapt : s.pendCapt = true → t.pendCapt = true
  pendPca  : s.pendPca = true → t.pendPca = true
  pendWg0  : s.pendWg0 = true → t.pendWg0 = true
  pendWg1  : s.pendWg1 = true → t.pendWg1 = true

/-- A field that is neither the clock's nor blanked is as it was. -/
theorem EnvFrame.field {α : Type} {s t : State} (h : EnvFrame s t) (f : State → α)
    (hf : ∀ n u, f (adv n u) = f u) : f (blankEnv t) = f (blankEnv s) :=
  field_of_adv f hf h.rest

theorem envFrame_capEdge (l : Bool) (s : State) : EnvFrame s (capEdge l s) := by
  unfold capEdge
  split
  · exact ⟨⟨0, (adv_zero _).symm⟩, fun _ => rfl, id, id, id⟩
  · exact ⟨⟨0, (adv_zero _).symm⟩, id, id, id, id⟩

theorem envFrame_pgaSet (v : U8) (s : State) : EnvFrame s (pgaSet v s) :=
  ⟨⟨0, (adv_zero _).symm⟩, id, fun h => by simp [pgaSet, h], id, id⟩

theorem envFrame_wgPulse (k : Bool) (s : State) : EnvFrame s (wgPulse k s) := by
  cases k
  · exact ⟨⟨0, (adv_zero _).symm⟩, id, id, fun _ => rfl, id⟩
  · exact ⟨⟨0, (adv_zero _).symm⟩, id, id, id, fun _ => rfl⟩

/-- The frame of every operation of the environment. -/
theorem exec_env_frame {i : Instr} {s t : State} (hi : i.agent = .env) (h : exec i s = .next t) : EnvFrame s t := by
  cases i with
  | adv n => cases h; exact ⟨⟨n.toNat, rfl⟩, id, id, id, id⟩
  | capedge l => cases h; exact envFrame_capEdge l s
  | pgaset v => cases h; exact envFrame_pgaSet v s
  | wgpulse k => cases h; exact envFrame_wgPulse k s
  | _ => cases hi

/-! ### One step of the machine -/

/-- What one step can do to a state whose next input item has been taken off. A step that does nothing is a `poll`
one that changes nothing. -/
inductive StepFrame (s t : State) : Prop
  | env (h : EnvFrame s t)
  | irq (h : IrqFrame s t)
  | poll (h : PollFrame s t)
  | reset (h : t = resetBlock s)
  | provider (code : Int) (h : t = configure code s)

theorem exec_frame {i : Instr} {s t : State} (hi : i.agent ≠ .sub) (h : exec i s = .next t) : StepFrame s t := by
  cases ha : i.agent with
  | env => exact .env (exec_env_frame ha h)
  | irq => exact .irq (exec_irq_frame ha h)
  | poll =>
    by_cases hr : i = .reset
    · subst hr; cases h; exact .reset rfl
    · exact .poll (exec_poll_frame ha hr h)
  | sub => exact absurd ha hi

theorem issueWord_frame {w : SelectWord} {s t : State} (h : issueWord w s = .next t) : StepFrame s t := by
  unfold issueWord at h
  split at h
  next i hi => exact exec_frame (decode_agent hi) h
  next => cases h; exact .poll (.refl s)

theorem startWord_frame {w : SelectWord} {s t : State} (h : startWord w s = .next t) : StepFrame s t := by
  unfold startWord at h
  split at h
  next => cases h; exact .poll (.refl s)
  next i hi =>
    split at h
    next u hu => cases h; exact .poll (startOp_frame hu)
    next => exact exec_frame (decode_agent hi) h

/-- The frame of every step: an invariant needs one proof for each of the five cases. -/
theorem step_frame {s t : State} (h : step s = .next t) : StepFrame { s with stim := s.stim.tail } t := by
  unfold step takeNext at h
  cases hs : s.stim with
  | nil =>
    rw [hs] at h
    cases h
    exact .poll (.of_blank_eq (by rw [List.tail_nil, ← hs]) rfl rfl)
  | cons x rest =>
    rw [hs] at h
    match x with
    | .issue w => exact issueWord_frame h
    | .start w => exact startWord_frame h
    | .resume => cases h; exact .poll (pollFrame_resume _)
    | .configure code => cases h; exact .provider code rfl

end Sys2Proof.Machine

/-! R52: the frames of the agents keep what the other contexts own. -/

namespace Sys2Proof.Machine

theorem PollFrame.keepsInterruptOwned {s t : State} (h : PollFrame s t) : KeepsInterruptOwned s t := by
  obtain ⟨⟨n, rest⟩, bits, -⟩ := h
  have keep {α : Type} (f : State → α) : f (blankPolling t) = f (adv n (blankPolling s)) := congrArg f rest
  have flag : t.ovfFlag = (s.ovfFlag || _) := keep State.ovfFlag
  exact ⟨keep State.qHead, keep State.slots, keep State.overflowCount, keep State.wgLastTs,
    fun hs => by rw [flag, hs, Bool.true_or],
    (keep State.pendCapt).trans, (keep State.pendPca).trans, (keep State.pendWg0).trans, (keep State.pendWg1).trans,
    bits⟩

theorem EnvFrame.keepsInterruptOwned {s t : State} (h : EnvFrame s t) : KeepsInterruptOwned s t := by
  obtain ⟨⟨n, rest⟩, capt, pca, wg0, wg1⟩ := h
  have keep {α : Type} (f : State → α) : f (blankEnv t) = f (adv n (blankEnv s)) := congrArg f rest
  have flag : t.ovfFlag = (s.ovfFlag || _) := keep State.ovfFlag
  exact ⟨keep State.qHead, keep State.slots, keep State.overflowCount, keep State.wgLastTs,
    fun hs => by rw [flag, hs, Bool.true_or], capt, pca, wg0, wg1, .inl (keep State.wgBits)⟩

theorem EnvFrame.keepsPollingOwned {s t : State} (h : EnvFrame s t) : KeepsPollingOwned s t := by
  obtain ⟨n, rest⟩ := h.rest
  have keep {α : Type} (f : State → α) : f (blankEnv t) = f (adv n (blankEnv s)) := congrArg f rest
  have bits : t.wgBits = s.wgBits := keep State.wgBits
  exact ⟨keep State.qTail, keep State.drainLock, keep State.drainN, keep State.inst, keep State.wgDiagLen,
    keep State.wgDiagTs, keep State.tx0, keep State.tx1, keep State.txClk, keep State.txData, keep State.trace,
    bits ▸ List.prefix_rfl⟩

theorem IrqFrame.keepsPollingOwned {s t : State} (h : IrqFrame s t) : KeepsPollingOwned s t := by
  have bits : s.wgBits <+: t.wgBits := by
    rcases h.bits with hb | ⟨-, b, hb⟩
    · rw [hb]
    · rw [hb]; exact List.prefix_append _ _
  exact ⟨h.field State.qTail, h.field State.drainLock, h.field State.drainN, h.field State.inst, h.field State.wgDiagLen,
    h.field State.wgDiagTs, h.field State.tx0, h.field State.tx1, h.field State.txClk, h.field State.txData,
    h.field State.trace, bits⟩

/-- Settles O53: the frame of the agent at hand, for a whole operation, its first micro-step and each next one. -/
theorem contextsWriteOnlyWhatTheyOwn : Obligations.ContextsWriteOnlyWhatTheyOwn := by
  refine ⟨fun i s t h => ⟨fun hi => ?_, fun hi => ?_⟩, fun s => (pollFrame_resume s).keepsInterruptOwned⟩
  · rcases h with h | h
    · rcases hi with ⟨poll, notReset⟩ | env
      · exact (exec_poll_frame poll notReset h).keepsInterruptOwned
      · exact (exec_env_frame env h).keepsInterruptOwned
    · exact (startOp_frame h).keepsInterruptOwned
  · rcases h with h | h
    · rcases hi with irq | env
      · exact (exec_irq_frame irq h).keepsPollingOwned
      · exact (exec_env_frame env h).keepsPollingOwned
    · rw [agent_of_startOp h] at hi
      exact absurd hi (by decide)

end Sys2Proof.Machine

/-! R24: the ghost tick count explains the counter, and the wraps unless one was lost. -/

namespace Sys2Proof.Machine

/-- ADV keeps the clock invariant: at most one wrap, into a clear flag, or the loss is noted. -/
theorem clockInv_adv (n : Nat) {s : State} (h : ClockInv s) : ClockInv (adv n s) := by
  obtain ⟨counter, wraps⟩ := h
  refine ⟨by simp [counter], fun notLost => ?_⟩
  simp only [adv_clockLost, Bool.or_eq_false_iff, Bool.and_eq_false_iff, decide_eq_false_iff_not] at notLost
  obtain ⟨⟨notLostBefore, noSecond⟩, noDouble⟩ := notLost
  have before := wraps notLostBefore
  simp only [adv_overflowCount, adv_ovfFlag, adv_T]
  by_cases wrapped : 1 ≤ (s.hardwareCounter.toNat + n) / 65536
  · have flagClear : s.ovfFlag = false := noSecond.resolve_left (not_not_intro wrapped)
    simp only [flagClear, wrapped, decide_true, Bool.or_true, Bool.toNat_true, Bool.toNat_false] at before ⊢
    omega
  · simp only [wrapped, decide_false, Bool.or_false]
    omega

theorem clockInv_resetBlock (s : State) : ClockInv (resetBlock s) := by
  show ClockInv State.reset
  decide

theorem PollFrame.clockInv {s t : State} (h : PollFrame s t) (hs : ClockInv s) : ClockInv t := by
  obtain ⟨n, rest⟩ := h.rest
  have ticked : ClockInv (blankPolling t) := rest ▸ clockInv_adv n hs
  exact ticked

theorem EnvFrame.clockInv {s t : State} (h : EnvFrame s t) (hs : ClockInv s) : ClockInv t := by
  obtain ⟨n, rest⟩ := h.rest
  have ticked : ClockInv (blankEnv t) := rest ▸ clockInv_adv n hs
  exact ticked

/-- A service leaves the counter and the ghosts, and moves a pending wrap into the count. -/
theorem IrqFrame.clockInv {s t : State} (h : IrqFrame s t) (hs : ClockInv s) : ClockInv t := by
  have counter : t.hardwareCounter = s.hardwareCounter := h.field State.hardwareCounter
  have ticks : t.T = s.T := h.field State.T
  have lost : t.clockLost = s.clockLost := h.field State.clockLost
  have sum : (t.overflowCount.toNat + t.ovfFlag.toNat) % 65536 = (s.overflowCount.toNat + s.ovfFlag.toNat) % 65536 := by
    rcases h.wrap with ⟨count, flag⟩ | ⟨pending, count, flag⟩
    · rw [count, flag]
    · simp [count, flag, pending]
  rwa [ClockInv, counter, ticks, lost, sum]

/-- Settles O54: by the frame of the step. -/
theorem everyStepKeepsTheClockInvariant : Obligations.EveryStepKeepsTheClockInvariant := by
  intro s t hs h
  replace hs : ClockInv { s with stim := s.stim.tail } := hs
  cases step_frame h with
  | env h => exact h.clockInv hs
  | irq h => exact h.clockInv hs
  | poll h => exact h.clockInv hs
  | reset h => subst h; exact clockInv_resetBlock _
  | provider code h => subst h; unfold configure; split <;> exact hs

end Sys2Proof.Machine

/-! R41 and R44: the Wiegand buffer's bound and the translation option. -/

namespace Sys2Proof.Machine

/-- Emptying the buffer, or taking it while it is not empty, keeps the bounds. -/
theorem PollFrame.wiegandInv {s t : State} (h : PollFrame s t) (hs : WiegandInv s) : WiegandInv t := by
  obtain ⟨buffer, message⟩ := hs
  refine ⟨?_, fun msg hm => ?_⟩
  · rcases h.bits with hb | hb
    · rw [hb]; exact buffer
    · rw [hb]; decide
  · rcases h.taken msg hm with held | ⟨rfl, nonempty⟩
    · exact message msg held
    · exact ⟨List.length_pos_iff.2 nonempty, buffer⟩

/-- A bit is appended only where there is room for it. -/
theorem IrqFrame.wiegandInv {s t : State} (h : IrqFrame s t) (hs : WiegandInv s) : WiegandInv t := by
  have taken : t.wgTaken = s.wgTaken := h.field State.wgTaken
  refine ⟨?_, by rw [taken]; exact hs.2⟩
  rcases h.bits with hb | ⟨room, b, hb⟩
  · rw [hb]; exact hs.1
  · rw [hb, List.length_append]; exact room

theorem EnvFrame.wiegandInv {s t : State} (h : EnvFrame s t) (hs : WiegandInv s) : WiegandInv t := by
  have bits : t.wgBits = s.wgBits := h.field State.wgBits fun _ _ => rfl
  have taken : t.wgTaken = s.wgTaken := h.field State.wgTaken fun _ _ => rfl
  rwa [WiegandInv, bits, taken]

theorem PollFrame.xlateOption {s t : State} (h : PollFrame s t) : t.xlateOption = s.xlateOption :=
  h.field State.xlateOption fun _ _ => rfl

theorem EnvFrame.xlateOption {s t : State} (h : EnvFrame s t) : t.xlateOption = s.xlateOption :=
  h.field State.xlateOption fun _ _ => rfl

theorem IrqFrame.xlateOption {s t : State} (h : IrqFrame s t) : t.xlateOption = s.xlateOption :=
  h.field State.xlateOption

theorem configure_of_setup {s : State} (code : Int) (h : s.setup = true) :
    configure code s = { s with xlateOption := (Config.xlateCode code).getD s.xlateOption } := if_pos h

theorem configure_of_not_setup {s : State} (code : Int) (h : s.setup = false) : configure code s = s :=
  if_neg (by rw [h]; decide)

theorem wiegandInv_resetBlock (s : State) : WiegandInv (resetBlock s) := by
  show WiegandInv State.reset
  exact ⟨by decide, nofun⟩

theorem configure_wiegandInv {s : State} (code : Int) (hs : WiegandInv s) : WiegandInv (configure code s) := by
  unfold configure
  split <;> exact hs

/-- The provider's integer as the next item of the input is a `configure` of the rest. -/
theorem step_configure {s : State} {code : Int} {rest : List Stimulus} (h : s.stim = .configure code :: rest) :
    step s = .next (configure code { s with stim := rest }) := by
  unfold step takeNext
  rw [h]
  rfl

/-- Settles O58: by the frame of the step; the provider is the one that sets the option, and only during setup. -/
theorem everyStepKeepsTheWiegandInvariant : Obligations.EveryStepKeepsTheWiegandInvariant := by
  refine ⟨fun s t hs h => ?_, fun s code rest h => ⟨fun setup => ?_, fun setup => ?_⟩⟩
  · replace hs : WiegandInv { s with stim := s.stim.tail } := hs
    cases step_frame h with
    | env h => exact ⟨h.wiegandInv hs, fun _ => h.xlateOption⟩
    | irq h => exact ⟨h.wiegandInv hs, fun _ => h.xlateOption⟩
    | poll h => exact ⟨h.wiegandInv hs, fun _ => h.xlateOption⟩
    | reset h => subst h; exact ⟨wiegandInv_resetBlock _, fun _ => rfl⟩
    | provider code h =>
      subst h
      refine ⟨configure_wiegandInv code hs, fun setup => ?_⟩
      rw [configure_of_not_setup]
      exact setup
  · rw [step_configure h, configure_of_setup]
    exact setup
  · rw [step_configure h, configure_of_not_setup]
    exact setup

end Sys2Proof.Machine

/-! R79 and R351: what a step makes of the next item of the input. -/

namespace Sys2Proof.Machine

/-- The next item is performed on the state without it. -/
theorem step_of_stim {s : State} {x : Stimulus} {rest : List Stimulus} (h : s.stim = x :: rest) :
    step s = perform x { s with stim := rest } := by
  unfold step takeNext
  rw [h]

theorem issueWord_of_decode {w : SelectWord} {i : Instr} (s : State) (h : decode w = .ok i) :
    issueWord w s = exec i s := by
  unfold issueWord
  rw [h]

theorem startWord_of_startOp {w : SelectWord} {i : Instr} {s u : State} (h : decode w = .ok i)
    (hu : startOp i s = some u) : startWord w s = .next u := by
  unfold startWord
  simp only [h, hu]

theorem startWord_of_startOp_none {w : SelectWord} {i : Instr} {s : State} (h : decode w = .ok i)
    (hn : startOp i s = none) : startWord w s = exec i s := by
  unfold startWord
  simp only [h, hn]

theorem startWord_of_reject {w : SelectWord} {e : Reject} (s : State) (h : decode w = .error e) :
    startWord w s = .next s := by
  unfold startWord
  rw [h]

/-- Settles O6: one rule for taking the item, one for each kind of item. -/
theorem stepRunsTheDecodedOperation : Obligations.StepRunsTheDecodedOperation := by
  refine ⟨fun s w rest i hs hw => ?_, fun s w rest i hs hw => ⟨fun u hu => ?_, fun hn => ?_⟩,
    fun s w rest e hs hw => ?_, fun s rest hs => ?_, fun s w hw => ⟨?_, rfl⟩⟩
  · exact (step_of_stim hs).trans (issueWord_of_decode _ hw)
  · exact (step_of_stim hs).trans (startWord_of_startOp hw hu)
  · exact (step_of_stim hs).trans (startWord_of_startOp_none hw hn)
  · exact (step_of_stim hs).trans (startWord_of_reject _ hw)
  · exact step_of_stim hs
  · show .issue (BitVec.ofNat 48 (w % 2 ^ 48)) :: s.stim = .issue (BitVec.ofNat 48 w) :: s.stim
    rw [Nat.mod_eq_of_lt hw]

end Sys2Proof.Machine

/-! R164, R165 and R353: masking and unmasking between operations. -/

namespace Sys2Proof.Machine

theorem whenever_pollFree {s : State} (f : State → State) (h : BetweenOperations s) :
    whenever (pollFree s) f s = f s := by
  rw [(pollFree_iff s).2 h, whenever_true]

theorem whenever_not_pollFree {s : State} (f : State → State) (h : ¬ BetweenOperations s) :
    whenever (pollFree s) f s = s := by
  rw [Bool.eq_false_iff.2 (mt (pollFree_iff s).1 h), whenever_false]

/-- A masked service changes nothing (R352). -/
theorem service_of_masked (src : IrqSource) (body : State → State) {s : State} (h : s.intEnable = false) :
    service src body s = s := by
  rcases service_cases src body s with ⟨enabled, -⟩ | ⟨-, hs⟩
  · rw [intEnable_of_irqEnabled enabled] at h
    cases h
  · exact hs

/-- While interrupts are masked, no interrupt service does anything. -/
theorem exec_irq_of_masked {i : Instr} {s : State} (hi : i.agent = .irq) (h : s.intEnable = false) :
    exec i s = .next s := by
  cases i with
  | isrCapt | isrPca | isrWg0 | isrWg1 | isrTov => exact congrArg Host.Outcome.next (service_of_masked _ _ h)
  | _ => cases hi

/-- Settles O16: CLI and STI by their enablement, the services because no source is enabled while masked. -/
theorem cliMasksEveryServiceAndStiUnmasks : Obligations.CliMasksEveryServiceAndStiUnmasks := by
  refine fun s => ⟨fun between => ⟨?_, fun i hi => ?_, ?_⟩, fun inside => ⟨?_, ?_⟩⟩
  · exact congrArg Host.Outcome.next (whenever_pollFree _ between)
  · have irq : ∀ j ∈ [Instr.isrCapt, .isrPca, .isrWg0, .isrWg1, .isrTov], j.agent = .irq := by decide
    exact exec_irq_of_masked (irq i hi) rfl
  · exact congrArg Host.Outcome.next (whenever_pollFree _ between)
  · exact congrArg Host.Outcome.next (whenever_not_pollFree _ inside)
  · exact congrArg Host.Outcome.next (whenever_not_pollFree _ inside)

end Sys2Proof.Machine

/-! R300: the micro-steps of a transmission, one by one. -/

namespace Sys2Proof.Machine

/-- A micro-step does what the spec's words say of it. -/
theorem txStep_eq_performed (t : TxStep) (s : State) : txStep t s = performed t s := by
  match t with
  | .item (.emit _ _) => rfl
  | .item (.wait _) => rfl
  | .setIntEnable _ => rfl
  | .record _ => rfl

/-- The place inside a transmission plays no part in a micro-step. -/
theorem txStep_txRest (t : TxStep) (rest : List TxStep) (s : State) :
    txStep t { s with txRest := rest } = { txStep t s with txRest := rest } := by
  match t with
  | .item (.emit sig _) => cases sig <;> rfl
  | .item (.wait _) => rfl
  | .setIntEnable _ => rfl
  | .record _ => rfl

theorem txStep_wgTaken (t : TxStep) (s : State) : (txStep t s).wgTaken = s.wgTaken := by rw [txStep_eq]

/-- Outside WGPOLL the next micro-step is the first of those still to come. -/
theorem resume_eq_nextMicroStep {s : State} (h : s.wgTaken = none) : resume s = nextMicroStep s.txRest s := by
  unfold resume nextMicroStep
  rw [h]
  cases s.txRest with
  | nil => rfl
  | cons t rest => exact txStep_eq_performed t _

/-- Starting a transmission performs its first micro-step and leaves the others to come. -/
theorem txStart_eq_nextMicroStep (ts : List TxStep) (s : State) : txStart ts s = nextMicroStep ts s := by
  cases ts with
  | nil => rfl
  | cons t rest =>
    calc txStart (t :: rest) s = txStep t { s with txRest := rest } := (txStep_txRest t rest s).symm
      _ = nextMicroStep (t :: rest) s := txStep_eq_performed t _

/-- Resuming until nothing is left performs all the micro-steps in order. -/
theorem resume_iterate_txRest {s : State} (h : s.wgTaken = none) (ts : List TxStep) :
    resume^[ts.length] { s with txRest := ts } = { txRun ts s with txRest := [] } := by
  induction ts generalizing s with
  | nil => rfl
  | cons t rest ih =>
    have next : resume { s with txRest := t :: rest } = { txStep t s with txRest := rest } :=
      calc resume { s with txRest := t :: rest }
          = nextMicroStep (t :: rest) s := resume_eq_nextMicroStep (s := { s with txRest := t :: rest }) h
        _ = txStart (t :: rest) s := (txStart_eq_nextMicroStep _ s).symm
    rw [List.length_cons, Function.iterate_succ_apply, next, ih ((txStep_wgTaken t s).trans h), txRun_cons]

theorem txRun_txRest (ts : List TxStep) (s : State) : (txRun ts s).txRest = s.txRest := by rw [txRun_eq]

/-- A transmission started and resumed to its end, with nothing in between, is the transmission run whole. -/
theorem exists_resume_iterate_txStart {s : State} (taken : s.wgTaken = none) (rest : s.txRest = []) (ts : List TxStep) :
    ∃ k, resume^[k] (txStart ts s) = txRun ts s := by
  cases ts with
  | nil => exact ⟨0, rfl⟩
  | cons t ts =>
    have ended : (txRun ts (txStep t s)).txRest = [] := by rw [txRun_txRest, txStep_eq]; exact rest
    refine ⟨ts.length, ?_⟩
    calc resume^[ts.length] (txStart (t :: ts) s)
        = { txRun ts (txStep t s) with txRest := [] } :=
          resume_iterate_txRest ((txStep_wgTaken t s).trans taken) ts
      _ = txRun (t :: ts) s := by rw [← ended, txRun_cons]

/-! ### One trace item at most -/

/-- From `s` to `t` at most one item is appended to the trace. -/
def AppendsAtMostOne (s t : State) : Prop := ∃ items : List TraceItem, items.length ≤ 1 ∧ t.trace = s.trace ++ items

theorem AppendsAtMostOne.of_trace_eq {s t : State} (h : t.trace = s.trace) : AppendsAtMostOne s t :=
  ⟨[], Nat.zero_le 1, by rw [h, List.append_nil]⟩

theorem appendsAtMostOne_txStep (t : TxStep) (s : State) : AppendsAtMostOne s (txStep t s) := by
  match t with
  | .item (.emit sig lvl) => exact ⟨[.emit sig lvl], le_rfl, rfl⟩
  | .item (.wait us) => exact ⟨[.wait us], le_rfl, rfl⟩
  | .setIntEnable b => exact .of_trace_eq rfl
  | .record o => exact .of_trace_eq rfl

theorem appendsAtMostOne_txStart (ts : List TxStep) (s : State) : AppendsAtMostOne s (txStart ts s) := by
  cases ts with
  | nil => exact .of_trace_eq rfl
  | cons t rest => exact appendsAtMostOne_txStep t s

theorem AppendsAtMostOne.whenever {f : State → State} {s : State} (b : Bool) (h : AppendsAtMostOne s (f s)) :
    AppendsAtMostOne s (whenever b f s) := by
  rcases whenever_cases b f s with ⟨-, e⟩ | ⟨-, e⟩
  · rw [e]; exact h
  · rw [e]; exact .of_trace_eq rfl

theorem wgStart_trace (s : State) : (wgStart s).trace = s.trace := by
  unfold wgStart
  rcases wgTake_cases s with ⟨-, h⟩ | ⟨-, h⟩
  · rw [h]
  · rw [h]; rfl

theorem drainBegin_trace (s : State) : (drainBegin s).1.trace = s.trace := by
  unfold drainBegin
  split <;> rfl

theorem appendsAtMostOne_startOp {i : Instr} {s u : State} (h : startOp i s = some u) : AppendsAtMostOne s u := by
  cases i with
  | tx32 | txcred | txkey => cases h; exact .whenever _ (appendsAtMostOne_txStart _ s)
  | wgpoll => cases h; exact .whenever _ (.of_trace_eq (wgStart_trace s))
  | drain => cases h; exact .whenever _ (.of_trace_eq (drainBegin_trace s))
  | _ => cases h

theorem appendsAtMostOne_resume (s : State) : AppendsAtMostOne s (resume s) := by
  unfold resume
  split
  next msg _ => exact appendsAtMostOne_txStart _ { wgConclude msg s with wgTaken := none }
  next =>
    split
    next => exact .of_trace_eq rfl
    next t rest _ => exact appendsAtMostOne_txStep t { s with txRest := rest }

/-! ### Which operations have micro-steps -/

theorem startOp_eq_none_iff (i : Instr) (s : State) :
    startOp i s = none ↔ i ≠ .drain ∧ i ≠ .wgpoll ∧ ∀ v c, i ≠ .tx32 v ∧ i ≠ .txcred v ∧ i ≠ .txkey c := by
  refine ⟨fun h => ?_, fun ⟨drain, wgpoll, tx⟩ => ?_⟩
  · refine ⟨?_, ?_, fun v c => ⟨?_, ?_, ?_⟩⟩ <;> (rintro rfl; cases h)
  · cases i with
    | drain => exact absurd rfl drain
    | wgpoll => exact absurd rfl wgpoll
    | tx32 v => exact absurd rfl (tx v .star).1
    | txcred v => exact absurd rfl (tx v .star).2.1
    | txkey c => exact absurd rfl (tx 0 c).2.2
    | _ => rfl

/-- A second DRAIN_BEGIN inside a drain changes nothing (R159). -/
theorem drainBegin_of_locked {s : State} (h : s.drainLock = true) : drainBegin s = (s, false) := if_pos h

theorem drainBegin_of_unlocked {s : State} (h : s.drainLock = false) :
    drainBegin s = ({ s with drainLock := true, drainN := 0, intEnable := true }, true) := if_neg (by rw [h]; decide)

/-- Inside a composite operation none starts (R356). -/
theorem startOp_of_not_between {i : Instr} {s u : State} (inside : ¬ BetweenOperations s) (h : startOp i s = some u) :
    u = s := by
  cases i with
  | tx32 | txcred | txkey | wgpoll => cases h; exact whenever_not_pollFree _ inside
  | drain =>
    cases h
    rcases whenever_cases (txFree s) (fun t => (drainBegin t).1) s with ⟨free, e⟩ | ⟨-, e⟩
    · have locked : s.drainLock = true := by
        rw [← Bool.not_eq_false]
        exact fun unlocked => inside ⟨unlocked, (txFree_iff s).1 free⟩
      rw [e, drainBegin_of_locked locked]
    · exact e
  | _ => cases h

end Sys2Proof.Machine

/-! R305, R306 and R310 to R318: the micro-steps of each transmission are those the rules list. -/

namespace Sys2Proof.Machine

theorem tx32BitItems_eq_pulseItems (b : Bool) : tx32BitItems b = pulseItems b := by cases b <;> rfl

theorem cdBitItems_eq_cellItems : cdBitItems = cellItems := rfl

theorem tx32Items_eq_pulses (v : U32) :
    tx32Items v = (List.range 32).flatMap fun j => pulseItems (v.getLsbD (31 - j)) := by
  simp only [tx32Items, tx32BitItems_eq_pulseItems]

theorem tx32Steps_eq (v : U32) : tx32Steps v = tx32MicroSteps v := by
  unfold tx32Steps tx32MicroSteps pulseMicroSteps
  rw [tx32Items_eq_pulses]

/-- The parity bit of R311 makes the number of ones odd. -/
theorem oddParityBit_eq (a b c d : Bool) :
    (true ^^ a ^^ b ^^ c ^^ d) = decide (([a, b, c, d].count true) % 2 = 0) := by
  revert a b c d
  decide

theorem cdWordBits_eq_wordCells (w : U4) : cdWordBits w = wordCells w := by
  unfold cdWordBits wordCells
  rw [oddParityBit_eq]

theorem cdWordItems_eq (w : U4) : cdWordItems w = (wordCells w).flatMap cellItems := by
  unfold cdWordItems
  rw [cdWordBits_eq_wordCells, cdBitItems_eq_cellItems]

/-- The parity word does not depend on the order of the words. -/
theorem cdLrc_eq_foldr (words : List U4) : cdLrc words = words.foldr (· ^^^ ·) 0 := List.foldl_eq_foldr

theorem cdFrameItems_eq (words : List U4) : cdFrameItems words = (frameCells words).flatMap cellItems := by
  have cells : cdWordItems = fun w => (wordCells w).flatMap cellItems := funext cdWordItems_eq
  unfold cdFrameItems frameCells
  rw [cdLrc_eq_foldr, cells, cdBitItems_eq_cellItems]
  simp only [List.flatMap_append, List.flatMap_assoc]
  rfl

theorem credFrame_eq (p : Params) (r : Nat) : credFrame p r = credentialWords p r := by
  simp [credFrame, credentialWords, decDigit]

theorem txCredSteps_eq (p : Params) (v : U32) : txCredSteps p v = txcredMicroSteps p v := by
  unfold txCredSteps txcredMicroSteps frameMicroSteps
  rw [cdFrameItems_eq, credFrame_eq]
  rfl

/-- The two decimal digits of a key's code are its slots (R131). -/
theorem keyCode_digits (c : Key) : (keyCode c / 10, keyCode c % 10) = keySlots c := by
  cases c with
  | digit d => revert d; decide
  | star | hash | bell => rfl

theorem keyFrame_eq_map (p : Params) (slot1 slot2 : U4) :
    keyFrame p slot1 slot2 = (List.finRange 6).map (keyWord p slot1 slot2) := by
  have places : List.finRange 6 = [0, 1, 2, 3, 4, 5] := by decide
  rw [places]
  rfl

theorem keyWords_eq (p : Params) (c : Key) : keyWords p c = keypressWords p c := by
  unfold keyWords keypressWords
  rw [keyFrame_eq_map, ← keyCode_digits]
  rfl

theorem txKeySteps_eq (p : Params) (c : Key) : txKeySteps p c = frameMicroSteps (keypressWords p c) := by
  unfold txKeySteps frameMicroSteps
  rw [cdFrameItems_eq, keyWords_eq]

/-! ### The first micro-steps between operations -/

theorem startOp_tx32 (v : U32) {s : State} (h : BetweenOperations s) :
    startOp (.tx32 v) s = some (txStart (tx32Steps v) s) := congrArg some (whenever_pollFree _ h)

theorem startOp_txcred (v : U32) {s : State} (h : BetweenOperations s) :
    startOp (.txcred v) s = some (txStart (txCredSteps s.cfg v) s) := congrArg some (whenever_pollFree _ h)

theorem startOp_txkey (c : Key) {s : State} (h : BetweenOperations s) :
    startOp (.txkey c) s = some (txStart (txKeySteps s.cfg c) s) := congrArg some (whenever_pollFree _ h)

theorem startOp_wgpoll {s : State} (h : BetweenOperations s) : startOp .wgpoll s = some (wgStart s) :=
  congrArg some (whenever_pollFree _ h)

theorem startOp_drain {s : State} (h : BetweenOperations s) : startOp .drain s = some (drainBegin s).1 := by
  have free : txFree s = true := (txFree_iff s).2 h.2
  show some (whenever (txFree s) (fun t => (drainBegin t).1) s) = some (drainBegin s).1
  rw [free, whenever_true]

theorem forwardSteps_key (p : Params) (code : U4) :
    forwardSteps p .clockData (.key code) = ((wgKeymap code).map (txKeySteps p)).getD [] := by
  simp only [forwardSteps]
  cases wgKeymap code <;> rfl

theorem forwardedTo_key (code : U4) : forwardedTo .clockData (.key code) = (wgKeymap code).map .txkey := by
  unfold wgKeymap
  simp only [forwardedTo, apply_dite (Option.map Instr.txkey), apply_ite (Option.map Instr.txkey), Option.map_some,
    Option.map_none]

/-- The transmission that WG_FORWARD calls is the one `forwardedTo` names, started (R278). -/
theorem txStart_forwardSteps (x : XlateOption) (res : WgResult) {c : State} (h : BetweenOperations c) :
    txStart (forwardSteps c.cfg x res) c = ((forwardedTo x res).bind fun i => startOp i c).getD c := by
  match x, res with
  | .none, _ => rfl
  | .fmt32, .cred r => exact (congrArg (Option.getD · c) (startOp_tx32 r h)).symm
  | .fmt32, .nothing | .fmt32, .noise _ | .fmt32, .zero | .fmt32, .key _ => rfl
  | .clockData, .cred r => exact (congrArg (Option.getD · c) (startOp_txcred r h)).symm
  | .clockData, .nothing | .clockData, .noise _ | .clockData, .zero => rfl
  | .clockData, .key code =>
    rw [forwardSteps_key, forwardedTo_key]
    cases wgKeymap code with
    | none => rfl
    | some key => exact (congrArg (Option.getD · c) (startOp_txkey key h)).symm

end Sys2Proof.Machine

/-! R273: WGPOLL's take and what follows it. -/

namespace Sys2Proof.Machine

theorem stamp_eq_timestampAt (c : U16) (s : State) : stamp c s = timestampAt s c := by
  have hc : c.toNat < 65536 := c.isLt
  apply BitVec.eq_of_toNat_eq
  rw [stamp_toNat, timestampAt, BitVec.toNat_ofNat]
  exact (Nat.mod_eq_of_lt (by omega)).symm

theorem wgTimeoutTicks_eq (p : Params) : wgTimeoutTicks p = timeoutTicks p.tick := by
  unfold wgTimeoutTicks tickNs
  cases p.tick <;> rfl

/-- A message is complete when a bit has come and the timeout has passed. -/
theorem wgComplete_iff (s : State) :
    wgComplete s = true ↔
      s.wgBits ≠ [] ∧ timeoutTicks s.cfg.tick ≤ (timestampAt s s.hardwareCounter - s.wgLastTs).toNat := by
  rw [wgComplete, stamp_eq_timestampAt, wgTimeoutTicks_eq, Bool.and_eq_true, decide_eq_true_eq, decide_eq_true_eq,
    Nat.one_le_iff_ne_zero, Ne, List.length_eq_zero_iff]

theorem wgStart_of_complete {s : State} (h : wgComplete s = true) :
    wgStart s = { s with wgBits := [], wgDiagLen := BitVec.ofNat 8 s.wgBits.length, wgDiagTs := s.wgLastTs,
                         intEnable := true, wgTaken := some s.wgBits } := by
  unfold wgStart wgTake
  rw [if_pos h]

theorem wgStart_of_not_complete {s : State} (h : wgComplete s = false) :
    wgStart s = { s with intEnable := true, result := .wiegand .nothing } := by
  unfold wgStart wgTake
  rw [if_neg (by rw [h]; decide)]
  rfl

/-- After the take, the next micro-step canonicalises the message and starts what it is forwarded to. -/
theorem resume_of_wgTaken {s : State} {msg : List Bool} (h : s.wgTaken = some msg) :
    resume s = txStart (forwardSteps s.cfg s.xlateOption (wgDecoded msg)) { wgConclude msg s with wgTaken := none } := by
  unfold resume
  rw [h]
  rfl

/-- WGPOLL started and resumed to its end, with nothing in between, is WGPOLL run whole. -/
theorem exists_resume_iterate_wgStart {s : State} (taken : s.wgTaken = none) (rest : s.txRest = []) :
    ∃ k, resume^[k] (wgStart s) = wgPoll s := by
  rcases wgTake_cases s with ⟨complete, take⟩ | ⟨-, take⟩
  · have resumed : resume (wgStart s) =
        txStart (forwardSteps s.cfg s.xlateOption (wgDecoded s.wgBits)) (wgConclude s.wgBits (wgTake s).1) := by
      rw [wgStart_of_complete complete, resume_of_wgTaken rfl, take, ← taken]
      rfl
    have whole : wgPoll s =
        txRun (forwardSteps s.cfg s.xlateOption (wgDecoded s.wgBits)) (wgConclude s.wgBits (wgTake s).1) := by
      unfold wgPoll
      rw [take]
    obtain ⟨k, hk⟩ := exists_resume_iterate_txStart (s := wgConclude s.wgBits (wgTake s).1)
      (by rw [take]; exact taken) (by rw [take]; exact rest) (forwardSteps s.cfg s.xlateOption (wgDecoded s.wgBits))
    exact ⟨k + 1, by rw [Function.iterate_succ_apply, resumed, hk, whole]⟩
  · refine ⟨0, ?_⟩
    unfold wgStart wgPoll
    rw [take]
    rfl

/-- A composite operation other than DRAIN, started between operations and resumed to its end, is the operation run
whole. -/
theorem exists_resume_iterate_startOp {i : Instr} {s t u : State} (between : BetweenOperations s) (hi : i ≠ .drain)
    (hu : startOp i s = some u) (ht : exec i s = .next t) : ∃ k, resume^[k] u = t := by
  have ⟨_, taken, rest⟩ := between
  cases i with
  | tx32 | txcred | txkey =>
    cases hu; cases ht
    rw [whenever_pollFree _ between, whenever_pollFree _ between]
    exact exists_resume_iterate_txStart taken rest _
  | wgpoll =>
    cases hu; cases ht
    rw [whenever_pollFree _ between, whenever_pollFree _ between]
    exact exists_resume_iterate_wgStart taken rest
  | drain => exact absurd rfl hi
  | _ => cases hu

end Sys2Proof.Machine

/-! R162: DRAIN as the words DRAIN_BEGIN, DRAIN_STEP and DRAIN_END. -/

namespace Sys2Proof.Machine

theorem exec_next (i : Instr) (s : State) : ∃ t, exec i s = .next t := by
  cases i <;> exact ⟨_, rfl⟩

theorem runOps_cons_of_exec {i : Instr} {s t : State} (is : List Instr) (h : exec i s = .next t) :
    runOps (i :: is) s = runOps is t := by
  rw [runOps, h]

theorem runOps_append (is js : List Instr) (s : State) : runOps (is ++ js) s = runOps js (runOps is s) := by
  induction is generalizing s with
  | nil => rfl
  | cons i is ih =>
    obtain ⟨t, ht⟩ := exec_next i s
    rw [List.cons_append, runOps_cons_of_exec _ ht, runOps_cons_of_exec _ ht, ih]

/-! ### The returned value plays no part in a drain -/

theorem onInst_give (i : Nat) (f : Instance → Instance × List ErrorOutcome) (r : Result) (s : State) :
    onInst i f (give r s) = give r (onInst i f s) := by
  unfold onInst
  rw [give_inst]
  cases s.inst[i]? <;> rfl

theorem dispatchAll_give (e : EdgeEvent) (r : Result) (s : State) :
    dispatchAll e (give r s) = give r (dispatchAll e s) :=
  List.foldl_hom (give r) fun t i => onInst_give i (dispatchInst e) r t

theorem drainStep_give (r : Result) (s : State) : drainStep (give r s) = (give r (drainStep s).1, (drainStep s).2) := by
  by_cases done : s.drainN = s.cfg.drainMax ∨ qEmpty s = true
  · have e : drainStep s = (s, false) := if_pos done
    rw [e]
    exact if_pos done
  · rw [drainStep, drainStep, if_neg done, ← dispatchAll_give]
    exact if_neg done

theorem drainLoop_give (n : Nat) (r : Result) (s : State) : drainLoop n (give r s) = give r (drainLoop n s) := by
  induction n generalizing s with
  | zero => rfl
  | succ n ih =>
    simp only [drainLoop, drainStep_give, ih]
    split <;> rfl

/-! ### The steps of a drain -/

theorem inDrain_drainStep {s : State} (h : inDrain s = true) : inDrain (drainStep s).1 = true := by
  rcases drainStep_cases s with ⟨-, e⟩ | ⟨-, -, e⟩
  · rw [e]; exact h
  · obtain ⟨is, os, d, -⟩ := dispatchAll_eq (s.slots.read (tailIdx s))
      { s with qTail := nextIdx s.cfg (tailIdx s), drainN := s.drainN + 1 }
    rw [e, d]; exact h

/-- A drain step that dispatches is one more, of the same bound. -/
theorem drainStep_drainN {s : State} (h : (drainStep s).2 = true) :
    (drainStep s).1.drainN = s.drainN + 1 ∧ (drainStep s).1.cfg = s.cfg := by
  rcases drainStep_cases s with ⟨-, e⟩ | ⟨-, -, e⟩
  · rw [e] at h; cases h
  · obtain ⟨is, os, d, -⟩ := dispatchAll_eq (s.slots.read (tailIdx s))
      { s with qTail := nextIdx s.cfg (tailIdx s), drainN := s.drainN + 1 }
    rw [e, d]
    exact ⟨rfl, rfl⟩

theorem drainStep_of_done {s : State} (h : (drainStep s).2 = false) : drainStep s = (s, false) := by
  rcases drainStep_cases s with ⟨-, e⟩ | ⟨-, -, e⟩
  · exact e
  · rw [e] at h; cases h

theorem exec_drainStep {s : State} (h : inDrain s = true) :
    exec .drainStep s = .next (give (if (drainStep s).2 then .more else .done) (drainStep s).1) := by
  show Host.Outcome.next (whenever (inDrain s) _ s) = _
  rw [h, whenever_true]

theorem exec_drainEnd {s : State} (h : inDrain s = true) : exec .drainEnd s = .next (drainEnd s) := by
  show Host.Outcome.next (whenever (inDrain s) _ s) = _
  rw [h, whenever_true]

/-- DRAIN_STEP issued while it returns More, and once more, is the loop of R162, where the loop's fuel is what the
bound leaves. -/
theorem exists_drainSteps_eq_drainLoop (n : Nat) {s : State} (h : inDrain s = true)
    (bound : s.drainN + n = s.cfg.drainMax) :
    ∃ k, (∀ j < k, (runOps (List.replicate (j + 1) .drainStep) s).result = .more) ∧
      runOps (List.replicate (k + 1) .drainStep) s = give .done (drainLoop n s) := by
  induction n generalizing s with
  | zero =>
    have done : drainStep s = (s, false) := if_pos (.inl bound)
    refine ⟨0, nofun, ?_⟩
    rw [List.replicate_succ, runOps_cons_of_exec _ (exec_drainStep h), done]
    rfl
  | succ n ih =>
    have first (j : Nat) := runOps_cons_of_exec (List.replicate j .drainStep) (exec_drainStep h)
    cases more : (drainStep s).2 with
    | false =>
      have done := drainStep_of_done more
      refine ⟨0, nofun, ?_⟩
      rw [List.replicate_succ, first, drainLoop, done]
      rfl
    | true =>
      obtain ⟨count, cfg⟩ := drainStep_drainN more
      simp only [more, if_true] at first
      obtain ⟨k, before, last⟩ := ih (s := give .more (drainStep s).1) (inDrain_drainStep h)
        (by rw [give_drainN, give_cfg, count, cfg]; omega)
      refine ⟨k + 1, fun j hj => ?_, ?_⟩
      · rw [List.replicate_succ, first]
        cases j with
        | zero => rfl
        | succ j => exact before j (Nat.lt_of_succ_lt_succ hj)
      · rw [List.replicate_succ, first, last, drainLoop_give, drainLoop, if_pos more]
        rfl

/-- DRAIN_BEGIN between operations begins a drain. -/
theorem inDrain_drainBegin {s : State} (h : BetweenOperations s) : inDrain (drainBegin s).1 = true := by
  rw [drainBegin_of_unlocked h.1, inDrain_iff]
  exact ⟨rfl, h.2⟩

theorem exec_drainBegin {s : State} (h : BetweenOperations s) :
    exec .drainBegin s = .next (give .acquired (drainBegin s).1) := by
  show Host.Outcome.next (whenever (txFree s) _ s) = _
  rw [(txFree_iff s).2 h.2, whenever_true, drainBegin_of_unlocked h.1]
  rfl

theorem exec_drain {s : State} (h : BetweenOperations s) :
    exec .drain s = .next (drainEnd (drainLoop s.cfg.drainMax (drainBegin s).1)) := by
  show Host.Outcome.next (whenever (txFree s) drain s) = _
  rw [(txFree_iff s).2 h.2, whenever_true, drain, drainBegin_of_unlocked h.1]
  rfl

/-- DRAIN's words leave what DRAIN leaves, but for the returned value. -/
theorem drain_eq_its_words {s : State} (h : BetweenOperations s) :
    ∃ t k, exec .drain s = .next t ∧
      (∀ j < k, (runOps (.drainBegin :: List.replicate (j + 1) .drainStep) s).result = .more) ∧
      (runOps (.drainBegin :: List.replicate (k + 1) .drainStep) s).result = .done ∧
      runOps (.drainBegin :: List.replicate (k + 1) .drainStep ++ [.drainEnd]) s = { t with result := .done } := by
  have begun := inDrain_drainBegin h
  have first (is : List Instr) := runOps_cons_of_exec is (exec_drainBegin h)
  obtain ⟨k, before, last⟩ := exists_drainSteps_eq_drainLoop s.cfg.drainMax (s := give .acquired (drainBegin s).1) begun
    (by rw [drainBegin_of_unlocked h.1]; exact Nat.zero_add _)
  have looped : inDrain (give .done (drainLoop s.cfg.drainMax (drainBegin s).1)) = true :=
    drainLoop_invariant (P := fun t => inDrain t = true) (fun _ => inDrain_drainStep) _ _ begun
  replace last : runOps (List.replicate (k + 1) .drainStep) (give .acquired (drainBegin s).1) =
      give .done (drainLoop s.cfg.drainMax (drainBegin s).1) := by
    rw [last, drainLoop_give]
    rfl
  refine ⟨_, k, exec_drain h, fun j hj => ?_, ?_, ?_⟩
  · rw [first]; exact before j hj
  · rw [first, last]; rfl
  · rw [runOps_append, first, last, runOps_cons_of_exec [] (exec_drainEnd looped)]
    rfl

/-- Settles O52: the transmissions by induction on what is left of them, DRAIN by induction on what is left of its bound,
WGPOLL by whether its take finds a complete message. -/
theorem microStepsMakeTheWholeOperation : Obligations.MicroStepsMakeTheWholeOperation := by
  refine ⟨fun i s t u between hi hu ht => exists_resume_iterate_startOp between hi hu ht, fun s between => ?drain,
    fun i s => ⟨startOp_eq_none_iff i s, fun inside u hu => startOp_of_not_between inside hu, ?grain⟩,
    fun v c s between => ⟨?tx32, ?txcred, ?txkey⟩, fun s taken => resume_eq_nextMicroStep taken,
    fun s between => ⟨fun incomplete => ?nothing, fun bits timeout => ?take⟩, fun s msg taken rest unlocked => ?forward⟩
  case drain =>
    obtain ⟨t, k, whole, more, done, words⟩ := drain_eq_its_words between
    refine ⟨t, k, whole, more, done, words, ?_⟩
    rw [startOp_drain between, runOps_cons_of_exec [] (exec_drainBegin between), drainBegin_of_unlocked between.1]
    rfl
  case grain =>
    rintro u (hu | rfl)
    · exact appendsAtMostOne_startOp hu
    · exact appendsAtMostOne_resume s
  case tx32 => rw [startOp_tx32 v between, txStart_eq_nextMicroStep, tx32Steps_eq]
  case txcred => rw [startOp_txcred v between, txStart_eq_nextMicroStep, txCredSteps_eq]
  case txkey => rw [startOp_txkey c between, txStart_eq_nextMicroStep, txKeySteps_eq]
  case nothing =>
    have notComplete : wgComplete s = false := by
      rw [← Bool.not_eq_true, wgComplete_iff]
      rintro ⟨bits, timeout⟩
      exact incomplete.elim bits (Nat.not_lt.2 timeout)
    rw [startOp_wgpoll between, wgStart_of_not_complete notComplete]
  case take => rw [startOp_wgpoll between, wgStart_of_complete ((wgComplete_iff s).2 ⟨bits, timeout⟩)]
  case forward =>
    have concluded : BetweenOperations { wgConclude msg s with wgTaken := none } := ⟨unlocked, rfl, rest⟩
    refine ⟨wgRaw msg, wgDecoded msg, wgOutcomes (wgDecoded msg), rfl, rfl, ?_⟩
    exact (resume_of_wgTaken taken).trans (txStart_forwardSteps s.xlateOption (wgDecoded msg) concluded)

end Sys2Proof.Machine

/-! R101 to R104: the three fields of a word, and what each kind of row of the table decodes to. -/

namespace Sys2Proof

/-! ### The fields (R101), in arithmetic -/

theorem joinFields_toNat (op a : U8) (b : U32) :
    (joinFields op a b).toNat = op.toNat * 2 ^ 40 + a.toNat * 2 ^ 32 + b.toNat := by
  unfold joinFields
  rw [BitVec.toNat_append, BitVec.toNat_append, ← Nat.shiftLeft_add_eq_or_of_lt b.isLt,
    ← Nat.shiftLeft_add_eq_or_of_lt a.isLt, Nat.shiftLeft_eq, Nat.shiftLeft_eq]
  omega

theorem fieldOp_toNat (w : SelectWord) : (fieldOp w).toNat = w.toNat / 2 ^ 40 := by
  have hw : w.toNat < 2 ^ 48 := w.isLt
  rw [fieldOp, BitVec.extractLsb'_toNat, Nat.shiftRight_eq_div_pow]
  omega

theorem fieldA_toNat (w : SelectWord) : (fieldA w).toNat = w.toNat / 2 ^ 32 % 2 ^ 8 := by
  rw [fieldA, BitVec.extractLsb'_toNat, Nat.shiftRight_eq_div_pow]

theorem fieldB_toNat (w : SelectWord) : (fieldB w).toNat = w.toNat % 2 ^ 32 := by
  rw [fieldB, BitVec.extractLsb'_toNat, Nat.shiftRight_zero]

/-- No bit of a word lies outside its fields. -/
theorem joinFields_fields (w : SelectWord) : joinFields (fieldOp w) (fieldA w) (fieldB w) = w := by
  apply BitVec.eq_of_toNat_eq
  rw [joinFields_toNat, fieldOp_toNat, fieldA_toNat, fieldB_toNat]
  omega

@[simp] theorem fieldOp_joinFields (op a : U8) (b : U32) : fieldOp (joinFields op a b) = op := by
  apply BitVec.eq_of_toNat_eq
  rw [fieldOp_toNat, joinFields_toNat]
  omega

@[simp] theorem fieldA_joinFields (op a : U8) (b : U32) : fieldA (joinFields op a b) = a := by
  apply BitVec.eq_of_toNat_eq
  rw [fieldA_toNat, joinFields_toNat]
  omega

@[simp] theorem fieldB_joinFields (op a : U8) (b : U32) : fieldB (joinFields op a b) = b := by
  apply BitVec.eq_of_toNat_eq
  rw [fieldB_toNat, joinFields_toNat]
  omega

theorem decode_joinFields (op a : U8) (b : U32) : decode (joinFields op a b) = decodeFields op a b := by
  simp [decode]

/-! ### The kinds of operands (R101 to R103): what decodes, and to what -/

theorem decodePlain_eq_ok_iff {i j : Instr} {a : U8} {b : U32} :
    decodePlain i a b = .ok j ↔ a = 0 ∧ b = 0 ∧ j = i := by
  unfold decodePlain
  split
  next used => simp [used, eq_comm]
  next unused => exact ⟨nofun, fun ⟨ha, hb, _⟩ => absurd ⟨ha, hb⟩ unused⟩

theorem decodeB_eq_ok_iff {f : U32 → Instr} {j : Instr} {a : U8} {b : U32} :
    decodeB f a b = .ok j ↔ a = 0 ∧ j = f b := by
  unfold decodeB
  split
  next used => simp [used, eq_comm]
  next unused => exact ⟨nofun, fun ⟨ha, _⟩ => absurd ha unused⟩

theorem decodeA_eq_ok_iff {f : U8 → Instr} {j : Instr} {a : U8} {b : U32} :
    decodeA f a b = .ok j ↔ b = 0 ∧ j = f a := by
  unfold decodeA
  split
  next used => simp [used, eq_comm]
  next unused => exact ⟨nofun, fun ⟨hb, _⟩ => absurd hb unused⟩

/-- A byte whose bits 7:1 are zero is its bit 0. -/
theorem extractLsb'_seven_eq_zero_iff (a : U8) :
    a.extractLsb' 1 7 = 0 ↔ a = (BitVec.ofBool (a.getLsbD 0)).setWidth 8 := by
  revert a
  decide

theorem getLsbD_zero_ofBool (l : Bool) : ((BitVec.ofBool l).setWidth 8).getLsbD 0 = l := by
  cases l <;> rfl

theorem decodeBit_eq_ok_iff {f : Bool → Instr} {j : Instr} {a : U8} {b : U32} :
    decodeBit f a b = .ok j ↔ ∃ l, a = (BitVec.ofBool l).setWidth 8 ∧ b = 0 ∧ j = f l := by
  unfold decodeBit
  split
  next used =>
    obtain ⟨hb, ha⟩ := used
    constructor
    · rintro ⟨⟩
      exact ⟨_, (extractLsb'_seven_eq_zero_iff a).1 ha, hb, rfl⟩
    · rintro ⟨l, rfl, -, rfl⟩
      rw [getLsbD_zero_ofBool]
  next unused =>
    refine ⟨nofun, ?_⟩
    rintro ⟨l, rfl, hb, -⟩
    exact absurd ⟨hb, by cases l <;> rfl⟩ unused

theorem keyOfChar_charOfKey (c : Key) : keyOfChar (charOfKey c) = some c := by
  cases c with
  | digit d => revert d; decide
  | star | hash | bell => rfl

/-- R103: the thirteen character codes, and no others, are keys'. -/
theorem keyOfChar_eq_some_iff {a : U8} {c : Key} : keyOfChar a = some c ↔ a = charOfKey c := by
  refine ⟨?_, fun h => h ▸ keyOfChar_charOfKey c⟩
  intro h
  unfold keyOfChar at h
  split at h
  next digit =>
    obtain rfl := Option.some.inj h
    apply BitVec.eq_of_toNat_eq
    simp only [charOfKey, BitVec.toNat_ofNat]
    omega
  next =>
    split at h
    next star => obtain rfl := Option.some.inj h; exact star
    next =>
      split at h
      next hash => obtain rfl := Option.some.inj h; exact hash
      next =>
        split at h
        next bell => obtain rfl := Option.some.inj h; exact bell
        next => cases h

theorem decodeKey_eq_ok_iff {j : Instr} {a : U8} {b : U32} :
    decodeKey a b = .ok j ↔ ∃ c, a = charOfKey c ∧ b = 0 ∧ j = .txkey c := by
  unfold decodeKey
  split
  next hb =>
    cases hk : keyOfChar a with
    | some c => simp [hb, ← keyOfChar_eq_some_iff, hk, eq_comm]
    | none => simp [hb, ← keyOfChar_eq_some_iff, hk]
  next unused => exact ⟨nofun, fun ⟨_, _, hb, _⟩ => absurd hb unused⟩

/-- R103: the bytes whose bits 6:2 are zero are those of a source and a rate. -/
theorem eq_registerByte {a : U8} (h6 : a.extractLsb' 4 3 = 0) (h2 : a.extractLsb' 2 2 = 0) :
    a = registerByte (sourceOfBit (a.getLsbD 7)) (rateOfBits (a.extractLsb' 0 2)) := by
  revert a
  decide

theorem registerByte_fields (source : Source) (rate : ClockRate) :
    (registerByte source rate).extractLsb' 4 3 = 0 ∧ (registerByte source rate).extractLsb' 2 2 = 0 ∧
    sourceOfBit ((registerByte source rate).getLsbD 7) = source ∧
    rateOfBits ((registerByte source rate).extractLsb' 0 2) = rate := by
  cases source <;> cases rate <;> decide

theorem eq_setWidth_of_upper_eq_zero {b : U32} (h : b.extractLsb' 8 24 = 0) :
    b = (b.extractLsb' 0 8).setWidth 32 := by
  have hb : b.toNat < 2 ^ 32 := b.isLt
  have upper : b.toNat / 2 ^ 8 % 2 ^ 24 = 0 := by
    rw [← Nat.shiftRight_eq_div_pow, ← BitVec.extractLsb'_toNat, h]
    rfl
  apply BitVec.eq_of_toNat_eq
  rw [BitVec.toNat_setWidth, BitVec.extractLsb'_toNat, Nat.shiftRight_zero]
  omega

theorem setWidth_fields (m : U8) :
    (m.setWidth 32).extractLsb' 8 24 = 0 ∧ (m.setWidth 32).extractLsb' 0 8 = m := by
  revert m
  decide

theorem decodeRegister_eq_ok_iff {j : Instr} {a : U8} {b : U32} :
    decodeRegister a b = .ok j ↔ ∃ source mask rate, registerLegal source mask = true ∧
      a = registerByte source rate ∧ b = mask.setWidth 32 ∧ j = .register source .infrared mask rate := by
  unfold decodeRegister
  constructor
  · intro h
    split at h
    next unusedZero =>
      split at h
      next protocolZero =>
        split at h
        next legal =>
          cases h
          exact ⟨_, _, _, legal, eq_registerByte unusedZero.1 protocolZero,
            eq_setWidth_of_upper_eq_zero unusedZero.2, rfl⟩
        next => cases h
      next => cases h
    next => cases h
  · rintro ⟨source, mask, rate, legal, rfl, rfl, rfl⟩
    obtain ⟨bits6, bits2, hsource, hrate⟩ := registerByte_fields source rate
    obtain ⟨upper, hmask⟩ := setWidth_fields mask
    rw [if_pos ⟨bits6, upper⟩, if_pos bits2, hsource, hrate, hmask, if_pos legal]

/-! ### The rows of the table (R102) -/

theorem eq_ofNat_of_toNat_eq {op : U8} {n : Nat} (h : op.toNat = n) : op = BitVec.ofNat 8 n := by
  rw [← h, BitVec.ofNat_toNat, BitVec.setWidth_eq]

/-- `i` is a well-formed operation whose word has these fields. -/
def HasFields (op a : U8) (b : U32) (i : Instr) : Prop :=
  encode i = some (joinFields op a b) ∧ i.wellFormed = true

theorem hasFields_of_decodePlain {i j : Instr} {op a : U8} {b : U32} (hi : HasFields op 0 0 i)
    (h : decodePlain i a b = .ok j) : HasFields op a b j := by
  obtain ⟨rfl, rfl, rfl⟩ := decodePlain_eq_ok_iff.1 h
  exact hi

theorem hasFields_of_decodeB {f : U32 → Instr} {j : Instr} {op a : U8} {b : U32} (hf : ∀ n, HasFields op 0 n (f n))
    (h : decodeB f a b = .ok j) : HasFields op a b j := by
  obtain ⟨rfl, rfl⟩ := decodeB_eq_ok_iff.1 h
  exact hf b

theorem hasFields_of_decodeA {f : U8 → Instr} {j : Instr} {op a : U8} {b : U32} (hf : ∀ v, HasFields op v 0 (f v))
    (h : decodeA f a b = .ok j) : HasFields op a b j := by
  obtain ⟨rfl, rfl⟩ := decodeA_eq_ok_iff.1 h
  exact hf a

theorem hasFields_of_decodeBit {f : Bool → Instr} {j : Instr} {op a : U8} {b : U32}
    (hf : ∀ l, HasFields op ((BitVec.ofBool l).setWidth 8) 0 (f l)) (h : decodeBit f a b = .ok j) :
    HasFields op a b j := by
  obtain ⟨l, rfl, rfl, rfl⟩ := decodeBit_eq_ok_iff.1 h
  exact hf l

theorem hasFields_of_decodeKey {j : Instr} {a : U8} {b : U32} (h : decodeKey a b = .ok j) : HasFields 0x18 a b j := by
  obtain ⟨c, rfl, rfl, rfl⟩ := decodeKey_eq_ok_iff.1 h
  exact ⟨rfl, rfl⟩

theorem hasFields_of_decodeRegister {j : Instr} {a : U8} {b : U32} (h : decodeRegister a b = .ok j) :
    HasFields 0x19 a b j := by
  obtain ⟨source, mask, rate, legal, rfl, rfl, rfl⟩ := decodeRegister_eq_ok_iff.1 h
  exact ⟨rfl, legal⟩

/-- The rows of the decoder are the rows of the encoder. -/
theorem hasFields_of_decodeFields {op a : U8} {b : U32} {i : Instr} (h : decodeFields op a b = .ok i) :
    HasFields op a b i := by
  unfold decodeFields at h
  split at h
  -- ADV, TX32 and TXCRED; CAPEDGE and WGPULSE; PGASET and IRREAD; TXKEY; REGISTER; an unlisted code; all others
  case h_2 hop | h_17 hop | h_18 hop =>
    obtain rfl := eq_ofNat_of_toNat_eq hop
    exact hasFields_of_decodeB (fun _ => ⟨rfl, rfl⟩) h
  case h_3 hop | h_5 hop =>
    obtain rfl := eq_ofNat_of_toNat_eq hop
    exact hasFields_of_decodeBit (fun _ => ⟨rfl, rfl⟩) h
  case h_4 hop | h_15 hop =>
    obtain rfl := eq_ofNat_of_toNat_eq hop
    exact hasFields_of_decodeA (fun _ => ⟨rfl, rfl⟩) h
  case h_19 hop =>
    obtain rfl := eq_ofNat_of_toNat_eq hop
    exact hasFields_of_decodeKey h
  case h_20 hop =>
    obtain rfl := eq_ofNat_of_toNat_eq hop
    exact hasFields_of_decodeRegister h
  case h_24 => cases h
  all_goals
    next hop =>
    obtain rfl := eq_ofNat_of_toNat_eq hop
    exact hasFields_of_decodePlain ⟨rfl, rfl⟩ h

/-- What a word decodes to is a well-formed operation, and the word is its word. -/
theorem encode_of_decode {w : SelectWord} {i : Instr} (h : decode w = .ok i) :
    encode i = some w ∧ i.wellFormed = true := by
  obtain ⟨word, legal⟩ := hasFields_of_decodeFields h
  exact ⟨word.trans (congrArg some (joinFields_fields w)), legal⟩

/-- The operation codes of R102. -/
def listedCodes : List Nat :=
  [0x00, 0x01, 0x02, 0x03, 0x04, 0x08, 0x09, 0x0A, 0x0B, 0x0C, 0x10, 0x11, 0x12, 0x13, 0x14, 0x15, 0x16, 0x17, 0x18,
   0x19, 0x1A, 0x1B, 0x1C]

theorem decodeFields_of_not_listed {op : U8} (a : U8) (b : U32) (h : op.toNat ∉ listedCodes) :
    decodeFields op a b = .error .unlistedOp := by
  unfold decodeFields
  split
  case h_24 => rfl
  all_goals next hop => exact absurd (by rw [hop]; decide) h

/-- Decoding a word put together from three numbers, where the operands have the widths of R101. -/
theorem decode_selectWord (op : Nat) {a b : Nat} (ha : a < 2 ^ 8) (hb : b < 2 ^ 32) :
    decode (Machine.selectWord op a b) = decodeFields (BitVec.ofNat 8 op) (BitVec.ofNat 8 a) (BitVec.ofNat 32 b) := by
  have word : Machine.selectWord op a b = joinFields (BitVec.ofNat 8 op) (BitVec.ofNat 8 a) (BitVec.ofNat 32 b) := by
    apply BitVec.eq_of_toNat_eq
    rw [joinFields_toNat, Machine.selectWord]
    simp only [BitVec.toNat_ofNat]
    omega
  rw [word, decode_joinFields]

end Sys2Proof

/-! R102 to R104: every operation code with its operands, and what a reserved word does. -/

namespace Sys2Proof.Machine

/-- R103: a legal character code selects TXKEY of its key. -/
theorem decode_txkey {n : Nat} (c : Key) (hn : n < 2 ^ 8) (hc : BitVec.ofNat 8 n = charOfKey c) :
    decode (selectWord 0x18 n 0) = .ok (.txkey c) := by
  rw [decode_selectWord 0x18 hn (by decide)]
  exact decodeKey_eq_ok_iff.2 ⟨c, hc, rfl, rfl⟩

/-- R103, R200: a legal source, mask and rate select REGISTER. -/
theorem decode_register {n m : Nat} {source : Source} {mask : U8} {rate : ClockRate} (hn : n < 2 ^ 8) (hm : m < 2 ^ 32)
    (legal : registerLegal source mask = true) (ha : BitVec.ofNat 8 n = registerByte source rate)
    (hb : BitVec.ofNat 32 m = mask.setWidth 32) :
    decode (selectWord 0x19 n m) = .ok (.register source .infrared mask rate) := by
  rw [decode_selectWord 0x19 hn hm]
  exact decodeRegister_eq_ok_iff.2 ⟨source, mask, rate, legal, ha, hb, rfl⟩

/-- The eight masks of R200 as REGISTER's operand. -/
theorem registerLegal_two_pow {k : Nat} (hk : k < 8) :
    2 ^ k < 2 ^ 32 ∧ registerLegal .pinGroupA (BitVec.ofNat 8 (2 ^ k)) = true ∧
    BitVec.ofNat 32 (2 ^ k) = (BitVec.ofNat 8 (2 ^ k)).setWidth 32 := by
  revert k
  decide

/-- The four rates of R103 as REGISTER's operand. -/
theorem ofNat_eq_registerByte {r : Nat × ClockRate}
    (hr : r ∈ [(0, ClockRate.raw4us), (1, .ns4000), (2, .ns500), (3, .ns125)]) :
    r.1 < 4 ∧ BitVec.ofNat 8 (0x80 + r.1) = registerByte .pinGroupA r.2 ∧
    BitVec.ofNat 8 r.1 = registerByte .timer r.2 := by
  revert r
  simp only [List.forall_mem_cons]
  decide

/-- Settles O2, by the kinds of operands in the table. -/
theorem operationCodesSelectTheirOperations : Obligations.OperationCodesSelectTheirOperations := by
  refine ⟨?plain, fun n => ?word, fun v => ?byte, fun l => ?bit, fun d => ?digit, decode_txkey .star (by decide) rfl,
    decode_txkey .hash (by decide) rfl, decode_txkey .bell (by decide) rfl, fun k hk r hr => ?register,
    fun op a b hop ha hb unlisted => ?unlisted⟩
  case plain =>
    simp only [List.forall_mem_cons]
    exact ⟨rfl, rfl, rfl, rfl, rfl, rfl, rfl, rfl, rfl, rfl, rfl, rfl, rfl, rfl, nofun⟩
  case word =>
    have operand : BitVec.ofNat 32 n.toNat = n := by simp
    simp only [decode_selectWord _ (show 0 < 2 ^ 8 by decide) n.isLt, operand]
    exact ⟨decodeB_eq_ok_iff.2 ⟨rfl, rfl⟩, decodeB_eq_ok_iff.2 ⟨rfl, rfl⟩, decodeB_eq_ok_iff.2 ⟨rfl, rfl⟩⟩
  case byte =>
    have operand : BitVec.ofNat 8 v.toNat = v := by simp
    simp only [decode_selectWord _ v.isLt (show 0 < 2 ^ 32 by decide), operand]
    exact ⟨decodeA_eq_ok_iff.2 ⟨rfl, rfl⟩, decodeA_eq_ok_iff.2 ⟨rfl, rfl⟩⟩
  case bit =>
    have operand : BitVec.ofNat 8 l.toNat = (BitVec.ofBool l).setWidth 8 := by cases l <;> rfl
    have small : l.toNat < 2 ^ 8 := by cases l <;> decide
    simp only [decode_selectWord _ small (show 0 < 2 ^ 32 by decide), operand]
    exact ⟨decodeBit_eq_ok_iff.2 ⟨l, rfl, rfl, rfl⟩, decodeBit_eq_ok_iff.2 ⟨l, rfl, rfl, rfl⟩⟩
  case digit => exact decode_txkey (.digit d) (by omega) rfl
  case register =>
    obtain ⟨small, legal, mask⟩ := registerLegal_two_pow hk
    obtain ⟨four, pinGroup, timer⟩ := ofNat_eq_registerByte hr
    exact ⟨decode_register (by omega) small legal pinGroup mask,
      decode_register (by omega) (by decide) (by decide) timer rfl⟩
  case unlisted =>
    rw [decode_selectWord op ha hb]
    apply decodeFields_of_not_listed
    rwa [BitVec.toNat_ofNat, Nat.mod_eq_of_lt hop]

theorem issueWord_of_reject {w : SelectWord} {e : Reject} (s : State) (h : decode w = .error e) :
    issueWord w s = .next s := by
  unfold issueWord
  rw [h]

theorem irReadAt_of_none {i : Nat} {s : State} (h : s.inst[i]? = none) : irReadAt i s = s := by
  unfold irReadAt
  rw [h]

/-- Settles O7: a word that decodes is the word of the operation it decodes to, so a reserved word does not decode. -/
theorem reservedWordsChangeNothing : Obligations.ReservedWordsChangeNothing := by
  refine ⟨fun s w rest hs reserved => ?word, fun s k hk => ?index⟩
  case word =>
    cases hw : decode w with
    | ok i =>
      obtain ⟨word, legal⟩ := encode_of_decode hw
      exact absurd word (reserved i legal)
    | error e =>
      rcases hs with issued | started
      · exact (step_of_stim issued).trans (issueWord_of_reject _ hw)
      · exact (step_of_stim started).trans (startWord_of_reject _ hw)
  case index =>
    have same : irReadAt k.toNat s = s := irReadAt_of_none (List.getElem?_eq_none hk)
    show Host.Outcome.next (whenever (pollFree s) (irReadAt k.toNat) s) = .next s
    rcases whenever_cases (pollFree s) (irReadAt k.toNat) s with ⟨-, read⟩ | ⟨-, blocked⟩
    · rw [read, same]
    · rw [blocked]

end Sys2Proof.Machine

/-! R117: the data edges of an infrared frame. -/

namespace Sys2Proof.Machine

/-! ### What an operation on `inst[i]` leaves -/

theorem withInst_self {i : Nat} {s : State} {I : Instance} (h : s.inst[i]? = some I) : withInst i I [] s = s := by
  obtain ⟨hi, rfl⟩ := List.getElem?_eq_some_iff.1 h
  simp [withInst]

theorem withInst_withInst (i : Nat) (I J : Instance) (s : State) :
    withInst i J [] (withInst i I [] s) = withInst i J [] s := by
  simp [withInst]

theorem withInst_inst_of_some {i : Nat} {s : State} {I : Instance} (J : Instance) (os : List ErrorOutcome)
    (h : s.inst[i]? = some I) : (withInst i J os s).inst[i]? = some J := by
  obtain ⟨hi, -⟩ := List.getElem?_eq_some_iff.1 h
  simp [withInst, hi]

/-- IR_EDGE where `i` is below `n_inst` (R230). -/
theorem exec_irEdge_of_some {i : Nat} {s : State} {I : Instance} (kind : EdgeKind) (delta units : Int) (ts : U32)
    (h : s.inst[i]? = some I) :
    exec (.irEdge i kind delta units ts) s =
      .next (withInst i (irEdge kind delta units ts I).1 (irEdge kind delta units ts I).2 s) :=
  congrArg Host.Outcome.next (onInst_of_some (irEdge kind delta units ts) h)

/-! ### A data edge (R230, R235, R236) -/

/-- In the data, a gap inside one of the two bands is a bit. -/
theorem irFall_of_bit {delta : Int} {I : Instance} (ts : U32) (data : I.inWord = .inData)
    (valid : (400 ≤ delta ∧ delta ≤ 799) ∨ (1401 ≤ delta ∧ delta ≤ 1880)) :
    irFall delta ts I = irFallBit delta ts I := by
  have noRestart : ¬ (I.inWord = .idle ∨ Config.irRestartGap ≤ delta) := by
    rintro (idle | restart)
    · cases data.symm.trans idle
    · exact absurd restart (by unfold Config.irRestartGap; omega)
  have noSync : ¬ I.inWord = .sawStart := by simp [data]
  have inBand : ¬ (delta < Config.irBitMin ∨ Config.irBitMax < delta
      ∨ (Config.irDeadMin ≤ delta ∧ delta ≤ Config.irDeadMax)) := by
    simp only [Config.irBitMin, Config.irBitMax, Config.irDeadMin, Config.irDeadMax]
    omega
  rw [irFall, if_neg noRestart, if_neg noSync, if_neg inBand]

theorem irFallBit_of_ne {delta : Int} {I : Instance} (ts : U32) (h : I.bitsReceived ≠ 31) :
    irFallBit delta ts I = (irShiftIn delta I, []) := by
  rw [irFallBit, if_neg]
  show ¬ I.bitsReceived + 1 = 32
  omega

theorem irFallBit_of_eq {delta : Int} {I : Instance} (ts : U32) (h : I.bitsReceived = 31) :
    irFallBit delta ts I = irPublish ts (irShiftIn delta I) := by
  rw [irFallBit, if_pos]
  show I.bitsReceived + 1 = 32
  omega

/-! ### The message bit by bit -/

/-- The gap that carries a bit (R117). -/
def CarriesBit (b : Bool) (delta : Int) : Prop :=
  if b then 1401 ≤ delta ∧ delta ≤ 1880 else 400 ≤ delta ∧ delta ≤ 799

theorem CarriesBit.valid {b : Bool} {delta : Int} (h : CarriesBit b delta) :
    (400 ≤ delta ∧ delta ≤ 799) ∨ (1401 ≤ delta ∧ delta ≤ 1880) := by
  cases b with
  | false => exact .inl h
  | true => exact .inr h

/-- The threshold of R235 lies between the two bands. -/
theorem CarriesBit.threshold {b : Bool} {delta : Int} (h : CarriesBit b delta) :
    (if Config.irBitThreshold < delta then 1#32 else 0#32) = (BitVec.ofBool b).setWidth 32 := by
  cases b with
  | false =>
    have below : ¬ Config.irBitThreshold < delta := Int.not_lt.2 (h.2.trans (by decide))
    rw [if_neg below]
    rfl
  | true =>
    have above : Config.irBitThreshold < delta := lt_of_lt_of_le (by decide) h.1
    rw [if_pos above]
    rfl

/-- The bits of `m` below place `n`. -/
def lowBits (m : U32) (n : Nat) : U32 := (m.setWidth n).setWidth 32

theorem lowBits_zero (m : U32) : lowBits m 0 = 0 := by
  apply BitVec.eq_of_getLsbD_eq
  intro j _
  simp [lowBits]

theorem lowBits_full (m : U32) : lowBits m 32 = m := by simp [lowBits]

/-- Shifting in bit `n` of `m` at place `n`. -/
theorem lowBits_succ (m : U32) (n : Nat) :
    lowBits m n ||| ((BitVec.ofBool (m.getLsbD n)).setWidth 32 <<< n) = lowBits m (n + 1) := by
  apply BitVec.eq_of_getLsbD_eq
  intro j hj
  simp only [lowBits, BitVec.getLsbD_or, BitVec.getLsbD_shiftLeft, BitVec.getLsbD_setWidth, BitVec.getLsbD_ofBool]
  rcases Nat.lt_trichotomy j n with below | rfl | above
  · simp [below, Nat.lt_succ_of_lt below]
  · simp [hj]
  · have place : j - n ≠ 0 := by omega
    simp [place, Nat.not_lt.2 above.le, Nat.not_lt.2 (Nat.succ_le_of_lt above)]

/-- In mid-frame: the low `n` bits of `m` have been received, `acc` is the time since the last message. -/
def received (I : Instance) (m : U32) (n : Nat) (acc : U32) : Instance :=
  { I with bitsReceived := n, bitAccumulator := lowBits m n, accTime := acc }

theorem irShiftIn_received {I : Instance} {m : U32} {n : Nat} {delta : Int} (acc : U32)
    (h : CarriesBit (m.getLsbD n) delta) : irShiftIn delta (received I m n acc) = received I m (n + 1) acc := by
  simp only [irShiftIn, received, h.threshold, lowBits_succ]

/-- A falling edge that carries bit `n` of `m`, as the bit arm. -/
theorem irEdge_received {I : Instance} {m : U32} {n : Nat} {delta : Int} (acc : U32) (units : Int) (ts : U32)
    (data : I.inWord = .inData) (h : CarriesBit (m.getLsbD n) delta) :
    irEdge .fall delta units ts (received I m n acc) =
      irFallBit delta ts (received I m n (accumulate acc units)) :=
  irFall_of_bit (I := received I m n (accumulate acc units)) ts data h.valid

/-- With all its bits received, `m` is what is published. -/
theorem irPublish_received (I : Instance) (m : U32) (acc ts : U32) :
    irPublish ts (received I m 32 acc) =
      ({ I with capturedMessage := m, capturedBitCount := 32, bitAccumulator := m, bitsReceived := 32,
                lastMessageTimestamp := ts, accTime := 0, inWord := .idle }, []) := by
  simp only [irPublish, received, lowBits_full]

/-- The falling edges number 0 to `n - 1`. -/
def dataEdges (i : Nat) (gap units : Nat → Int) (ts : Nat → U32) (n : Nat) : List Instr :=
  (List.range n).map fun k => .irEdge i .fall (gap k) (units k) (ts k)

theorem runOps_dataEdges_succ {i n : Nat} {gap units : Nat → Int} {ts : Nat → U32} {s t : State}
    (h : exec (.irEdge i .fall (gap n) (units n) (ts n)) (runOps (dataEdges i gap units ts n) s) = .next t) :
    runOps (dataEdges i gap units ts (n + 1)) s = t := by
  rw [dataEdges, List.range_succ, List.map_append, runOps_append]
  exact runOps_cons_of_exec [] h

/-- Up to the 31st, each edge shifts its bit in. -/
theorem runOps_dataEdges {i : Nat} {s : State} {I : Instance} {m : U32} {gap : Nat → Int} (units : Nat → Int)
    (ts : Nat → U32) (there : s.inst[i]? = some I) (data : I.inWord = .inData) (noBits : I.bitsReceived = 0)
    (empty : I.bitAccumulator = 0) (carries : ∀ k < 32, CarriesBit (m.getLsbD k) (gap k)) (n : Nat) (hn : n ≤ 31) :
    ∃ acc, runOps (dataEdges i gap units ts n) s = withInst i (received I m n acc) [] s := by
  induction n with
  | zero =>
    have start : received I m 0 I.accTime = I := by rw [received, lowBits_zero, ← noBits, ← empty]
    refine ⟨I.accTime, ?_⟩
    rw [start, withInst_self there]
    rfl
  | succ n ih =>
    obtain ⟨acc, before⟩ := ih (by omega)
    have bit := carries n (by omega)
    refine ⟨accumulate acc (units n), runOps_dataEdges_succ ?_⟩
    rw [before, exec_irEdge_of_some _ _ _ _ (withInst_inst_of_some _ [] there), irEdge_received acc _ _ data bit,
      irFallBit_of_ne _ (show n ≠ 31 by omega), irShiftIn_received _ bit, withInst_withInst]

/-- Settles O36: thirty-one edges by induction, and the 32nd, which publishes. -/
theorem thirtyTwoDataEdgesPublishTheMessage : Obligations.ThirtyTwoDataEdgesPublishTheMessage := by
  intro i s I m gap units ts there data noBits empty carries
  obtain ⟨acc, before⟩ := runOps_dataEdges units ts there data noBits empty carries 31 le_rfl
  refine ⟨_, runOps_dataEdges_succ (n := 31) ?_, rfl⟩
  rw [before, exec_irEdge_of_some _ _ _ _ (withInst_inst_of_some _ [] there),
    irEdge_received acc _ _ data (carries 31 (by decide)), irFallBit_of_eq _ rfl,
    irShiftIn_received _ (carries 31 (by decide)), irPublish_received]
  exact congrArg Host.Outcome.next (withInst_withInst i _ _ s)

end Sys2Proof.Machine

/-! R150, R151, R166 and R270: what the environment does to the clock and the inputs. -/

namespace Sys2Proof.Machine

/-! ### ADV as single ticks -/

/-- One tick in closed form is one pass of the loop of R150: the counter wraps exactly from its last value. -/
theorem adv_one (s : State) : adv 1 s = oneTick s := by
  have bound : s.hardwareCounter.toNat < 65536 := s.hardwareCounter.isLt
  have next : BitVec.ofNat 16 (s.hardwareCounter.toNat + 1) = s.hardwareCounter + 1 := by simp [BitVec.ofNat_add]
  unfold oneTick
  by_cases wraps : s.hardwareCounter + 1 = 0
  · have last : s.hardwareCounter.toNat = 65535 := by bv_omega
    rw [if_pos wraps]
    simp [adv, last]
  · have below : s.hardwareCounter.toNat + 1 < 65536 := by bv_omega
    rw [if_neg wraps]
    simp [adv, Nat.div_eq_of_lt below, next]

theorem adv_eq_oneTick_iterate (n : Nat) (s : State) : adv n s = oneTick^[n] s := by
  induction n with
  | zero => exact adv_zero s
  | succ n ih => rw [Function.iterate_succ_apply', ← ih, ← adv_one, adv_adv]

/-- Settles O10: ADV of a sum is ADV of its parts, and ADV of one is the tick. -/
theorem advIsTicksOneByOne : Obligations.AdvIsTicksOneByOne :=
  fun n s => congrArg Host.Outcome.next (adv_eq_oneTick_iterate n.toNat s)

/-! ### Capture edges and Wiegand pulses -/

theorem capEdge_of_ne {l : Bool} {s : State} (h : l ≠ s.capIn) :
    capEdge l s = { s with capIn := l, icr := s.hardwareCounter, pendCapt := true } := if_pos h

theorem capEdge_of_eq {l : Bool} {s : State} (h : l = s.capIn) : capEdge l s = s := if_neg (not_not_intro h)

/-- Settles O11: CAPEDGE by whether the level changes, WGPULSE by its line. -/
theorem captureEdgesAndWiegandPulsesPend : Obligations.CaptureEdgesAndWiegandPulsesPend :=
  fun _ _ => ⟨fun h => congrArg Host.Outcome.next (capEdge_of_ne h),
    fun h => congrArg Host.Outcome.next (capEdge_of_eq h), rfl, rfl⟩

/-! ### The change mask of pin group A -/

/-- The mask gathered from a list on top of `m`, line by line. -/
theorem getLsbD_foldl_mask (is : List Instance) (m : U8) (k : Nat) :
    (is.foldl (fun m I => if I.source == .pinGroupA then m ||| I.mask else m) m).getLsbD k = true ↔
      m.getLsbD k = true ∨ ∃ I ∈ is, I.source = .pinGroupA ∧ I.mask.getLsbD k = true := by
  induction is generalizing m with
  | nil => simp
  | cons I is ih =>
    rw [List.foldl_cons, ih]
    by_cases bound : I.source = .pinGroupA
    · simp [bound, or_assoc]
    · simp [bound]

/-- PGA_IRQ_MASK holds the lines that an entry of the registry on pin group A monitors (R7). -/
theorem getLsbD_pgaIrqMask (s : State) (k : Nat) :
    (pgaIrqMask s).getLsbD k = true ↔ ∃ I ∈ s.inst, I.source = .pinGroupA ∧ I.mask.getLsbD k = true := by
  rw [pgaIrqMask, getLsbD_foldl_mask]
  simp

theorem ne_zero_iff_exists_getLsbD {w : Nat} (x : BitVec w) : x ≠ 0 ↔ ∃ k < w, x.getLsbD k = true := by
  rw [Ne, BitVec.eq_of_getLsbD_eq_iff]
  simp

/-- A line that differs and is in the mask. -/
theorem monitoredChange_iff (v : U8) (s : State) :
    (s.pgaIn ^^^ v) &&& pgaIrqMask s ≠ 0 ↔
      ∃ k < 8, s.pgaIn.getLsbD k ≠ v.getLsbD k ∧ ∃ I ∈ s.inst, I.source = .pinGroupA ∧ I.mask.getLsbD k = true := by
  simp only [ne_zero_iff_exists_getLsbD, BitVec.getLsbD_and, BitVec.getLsbD_xor, Bool.and_eq_true, getLsbD_pgaIrqMask,
    bne_iff_ne]

/-- Settles O12: the tested word is not zero exactly where a monitored line differs. -/
theorem pgasetPendsOnAMonitoredChange : Obligations.PgasetPendsOnAMonitoredChange := by
  refine fun v s => ⟨_, rfl, ?_⟩
  rw [Bool.or_eq_true, bne_iff_ne, monitoredChange_iff]

end Sys2Proof.Machine

/-! R152, R153 and R163: the timestamp of a counter value. -/

namespace Sys2Proof.Machine

theorem exec_stamp (c : U16) (s : State) : exec (.stamp c) s = .next { s with result := .time (timestampAt s c) } := by
  rw [← stamp_eq_timestampAt]
  rfl

/-- Settles O13: the stamp in arithmetic. -/
theorem stampCompensatesAPendingWrap : Obligations.StampCompensatesAPendingWrap := exec_stamp

/-- Settles O15: NOW by its enablement. -/
theorem nowReturnsTheStampOfTheCounter : Obligations.NowReturnsTheStampOfTheCounter := by
  refine fun s => ⟨fun between => ?_, fun inside => congrArg Host.Outcome.next (whenever_not_pollFree _ inside)⟩
  rw [← stamp_eq_timestampAt]
  exact congrArg Host.Outcome.next (whenever_pollFree _ between)

/-! ### Steps that only let time pass -/

/-- `s` with its clock alone, everything else as after reset. -/
def clockOnly (s : State) : State :=
  { State.reset with T := s.T, hardwareCounter := s.hardwareCounter, ovfFlag := s.ovfFlag,
                     overflowCount := s.overflowCount, clockLost := s.clockLost }

/-- From `s` to `t` nothing happens to the clock but ticks. -/
def OnlyTicks (s t : State) : Prop := ∃ n, clockOnly t = adv n (clockOnly s)

theorem OnlyTicks.of_clock_eq {s t : State} (h : clockOnly t = clockOnly s) : OnlyTicks s t :=
  ⟨0, by rw [h, adv_zero]⟩

theorem OnlyTicks.refl (s : State) : OnlyTicks s s := .of_clock_eq rfl

theorem OnlyTicks.trans {s t u : State} (h : OnlyTicks s t) (k : OnlyTicks t u) : OnlyTicks s u := by
  obtain ⟨n, hn⟩ := h
  obtain ⟨m, hm⟩ := k
  exact ⟨n + m, by rw [hm, hn, adv_adv]⟩

theorem PollFrame.onlyTicks {s t : State} (h : PollFrame s t) : OnlyTicks s t := by
  obtain ⟨n, rest⟩ := h.rest
  exact ⟨n, congrArg clockOnly rest⟩

theorem EnvFrame.onlyTicks {s t : State} (h : EnvFrame s t) : OnlyTicks s t := by
  obtain ⟨n, rest⟩ := h.rest
  exact ⟨n, congrArg clockOnly rest⟩

theorem clockOnly_enq (e : EdgeEvent) (s : State) : clockOnly (enq e s) = clockOnly s := by rw [enq_eq]; rfl

theorem clockOnly_tickEnq (s : State) : clockOnly (tickEnq s) = clockOnly s := by rw [tickEnq_eq]; rfl

theorem clockOnly_onInst (i : Nat) (f : Instance → Instance × List ErrorOutcome) (s : State) :
    clockOnly (onInst i f s) = clockOnly s := by
  obtain ⟨is, os, h, -⟩ := onInst_eq i f s
  rw [h]
  rfl

/-- Entry and exit leave the clock, so a service does where its body does. -/
theorem OnlyTicks.service {src : IrqSource} {body : State → State} (s : State)
    (h : ∀ t, clockOnly (body t) = clockOnly t) : OnlyTicks s (service src body s) := by
  apply OnlyTicks.of_clock_eq
  rcases service_cases src body s with ⟨-, e⟩ | ⟨-, e⟩
  · calc clockOnly (Machine.service src body s) = clockOnly (irqExit (body (irqEnter src s))) := by rw [e]
      _ = clockOnly (irqEnter src s) := h (irqEnter src s)
      _ = clockOnly s := by cases src <;> rfl
  · rw [e]

/-- A sub-operation leaves the clock, but for the waits of a transmission. -/
theorem exec_sub_onlyTicks {i : Instr} {s t : State} (hi : i.agent = .sub) (h : exec i s = .next t) :
    OnlyTicks s t := by
  cases i with
  | stamp | edgekind | conv | wgRaw | wgCanon | wgKeymap => cases h; exact .of_clock_eq rfl
  | enq e => cases h; exact .of_clock_eq (clockOnly_enq e s)
  | tickenq => cases h; exact .of_clock_eq (clockOnly_tickEnq s)
  | discard =>
    cases h
    split
    · exact .refl s
    · exact .of_clock_eq rfl
  | dispatch | irEdge | irFallStart | irFallSync | irFallRepeat | irFallAbort | irFallBit | irPublish | irRise =>
    cases h; exact .of_clock_eq (clockOnly_onInst _ _ s)
  | emit sig lvl => cases h; exact (pollFrame_txStep (.item (.emit sig lvl)) s).onlyTicks
  | wait us => cases h; exact (pollFrame_txStep (.item (.wait us)) s).onlyTicks
  | wgForward | tx32Bit | cdBit | cdWord | cdFrame => cases h; exact (pollFrame_txRun _ s).onlyTicks
  | _ => cases hi

/-- Only ISR_TOV counts a wrap, and only RESET sets the clock. -/
theorem exec_onlyTicks {i : Instr} {s t : State} (tov : i ≠ .isrTov) (reset : i ≠ .reset) (h : exec i s = .next t) :
    OnlyTicks s t := by
  cases agent : i.agent with
  | env => exact (exec_env_frame agent h).onlyTicks
  | irq =>
    cases i with
    | isrCapt | isrPca => cases h; exact .service s fun _ => clockOnly_enq _ _
    | isrWg0 | isrWg1 => cases h; exact .service s fun _ => rfl
    | isrTov => exact absurd rfl tov
    | _ => cases agent
  | poll => exact (exec_poll_frame agent reset h).onlyTicks
  | sub => exact exec_sub_onlyTicks agent h

theorem runItem_onlyTicks {x : RunItem} (h : ∀ i, x = .whole i ∨ x = .start i → i ≠ .isrTov ∧ i ≠ .reset)
    (s : State) : OnlyTicks s (runItem x s) := by
  have whole {i : Instr} (hi : i ≠ .isrTov ∧ i ≠ .reset) : OnlyTicks s (runOps [i] s) := by
    obtain ⟨t, ht⟩ := exec_next i s
    rw [runOps_cons_of_exec [] ht]
    exact exec_onlyTicks hi.1 hi.2 ht
  cases x with
  | whole i => exact whole (h i (.inl rfl))
  | start i =>
    cases started : startOp i s with
    | none => rw [runItem, started]; exact whole (h i (.inr rfl))
    | some u => rw [runItem, started]; exact (startOp_frame started).onlyTicks
  | resume => exact (pollFrame_resume s).onlyTicks

/-- A run without ISR_TOV and RESET does nothing to the clock but ticks. -/
theorem runItems_onlyTicks {xs : List RunItem} (h : ∀ i, .whole i ∈ xs ∨ .start i ∈ xs → i ≠ .isrTov ∧ i ≠ .reset)
    (s : State) : OnlyTicks s (runItems xs s) := by
  induction xs generalizing s with
  | nil => exact .refl s
  | cons x xs ih =>
    have first : OnlyTicks s (runItem x s) :=
      runItem_onlyTicks (fun i hi => h i (hi.imp (by rintro rfl; exact List.mem_cons_self)
        (by rintro rfl; exact List.mem_cons_self))) s
    exact first.trans (ih (fun i hi => h i (hi.imp (List.mem_cons_of_mem x) (List.mem_cons_of_mem x))) _)

/-! ### The timestamp of an earlier instant -/

/-- R153 in arithmetic: after `n` ticks the high half that STAMP takes for the counter value of the start is the
start's, whether the wrap was pending already, came since, or there is none. -/
theorem timestampAt_adv {s : State} {n : Nat} (inv : ClockInv s) (notLost : (adv n s).clockLost = false)
    (recent : n < 32768) (pending : (adv n s).ovfFlag = true → (s.T + n) % 65536 < 32768) :
    timestampAt (adv n s) s.hardwareCounter = BitVec.ofNat 32 s.T := by
  obtain ⟨counter, wraps⟩ := inv
  simp only [adv_clockLost, adv_ovfFlag, Bool.or_eq_false_iff, Bool.and_eq_false_iff, decide_eq_false_iff_not,
    Bool.or_eq_true, decide_eq_true_eq] at notLost pending
  obtain ⟨⟨notLostBefore, noSecond⟩, -⟩ := notLost
  have count := wraps notLostBefore
  apply BitVec.eq_of_toNat_eq
  simp only [timestampAt, BitVec.toNat_ofNat, adv_overflowCount, adv_ovfFlag, Bool.or_eq_true, decide_eq_true_eq]
  cases before : s.ovfFlag with
  | true =>
    have noWrap : ¬ 1 ≤ (s.hardwareCounter.toNat + n) / 65536 := by simpa [before] using noSecond
    have low : s.hardwareCounter.toNat < 32768 := by have := pending (.inl before); omega
    rw [if_pos ⟨.inl rfl, low⟩]
    simp only [before, Bool.toNat_true] at count
    omega
  | false =>
    have high : ¬ ((false = true ∨ 1 ≤ (s.hardwareCounter.toNat + n) / 65536) ∧ s.hardwareCounter.toNat < 32768) := by
      rintro ⟨before | wrapped, low⟩
      · cases before
      · omega
    rw [if_neg high]
    simp only [before, Bool.toNat_false] at count
    omega

/-- Settles O14: the run only lets time pass, and the ticks explain what STAMP finds. -/
theorem stampOfAnEarlierCaptureIsItsTickCount : Obligations.StampOfAnEarlierCaptureIsItsTickCount := by
  rintro a b xs inv rfl allowed notLost recent pending
  obtain ⟨n, ticks⟩ := runItems_onlyTicks allowed a
  have keep {α : Type} (f : State → α) : f (clockOnly (runItems xs a)) = f (adv n (clockOnly a)) := congrArg f ticks
  have elapsed : (runItems xs a).T = a.T + n := keep State.T
  have same : timestampAt (runItems xs a) a.hardwareCounter = timestampAt (adv n (clockOnly a)) a.hardwareCounter :=
    keep fun s => timestampAt s a.hardwareCounter
  have lost : (adv n (clockOnly a)).clockLost = false := (keep State.clockLost).symm.trans notLost
  rw [elapsed] at recent pending
  have stamped : timestampAt (adv n (clockOnly a)) a.hardwareCounter = BitVec.ofNat 32 a.T :=
    timestampAt_adv (s := clockOnly a) inv lost (by omega) fun flag => pending ((keep State.ovfFlag).trans flag)
  rw [exec_stamp, same, stamped]

end Sys2Proof.Machine

/-! R33, R154 and R167: the queue, and what ENQ and TICKENQ make of it. -/

namespace Sys2Proof.Machine

/-! ### Counting places of a ring -/

/-- The remainder of a number that wraps at most once. -/
theorem mod_of_lt_two_mul {a c : Nat} (h : a < 2 * c) : a % c = if a < c then a else a - c := by
  split
  next below => exact Nat.mod_eq_of_lt below
  next wrapped => rw [Nat.mod_eq_sub_mod (Nat.not_lt.1 wrapped), Nat.mod_eq_of_lt (by omega)]

/-- How many places of a ring of `c` places lie from `tail` up to `head`. -/
def ringCount (c head tail : Nat) : Nat := (head + c - tail) % c

theorem queueCount_eq_ringCount (s : State) : queueCount s = ringCount (qcap s.cfg) s.qHead s.qTail := rfl

section
variable {c head tail : Nat} (hh : head < c) (ht : tail < c)
include hh ht

theorem ringCount_eq : ringCount c head tail = if tail ≤ head then head - tail else head + c - tail := by
  rw [ringCount, mod_of_lt_two_mul (by omega)]
  split_ifs <;> omega

theorem ringCount_lt : ringCount c head tail < c := by
  rw [ringCount_eq hh ht]
  split <;> omega

theorem ringCount_eq_zero_iff : ringCount c head tail = 0 ↔ head = tail := by
  rw [ringCount_eq hh ht]
  split <;> omega

/-- Of the places counted from the tail, the head is the one after the last that is counted. -/
theorem place_eq_head_iff {j : Nat} (hj : j < c) : (tail + j) % c = head ↔ j = ringCount c head tail := by
  rw [ringCount_eq hh ht, mod_of_lt_two_mul (by omega)]
  split_ifs <;> omega

theorem ringCount_next_head (room : (head + 1) % c ≠ tail) :
    ringCount c ((head + 1) % c) tail = ringCount c head tail + 1 := by
  have next : (head + 1) % c < c := Nat.mod_lt _ (by omega)
  rw [ringCount_eq next ht, ringCount_eq hh ht]
  rw [mod_of_lt_two_mul (by omega)] at room ⊢
  split_ifs at room ⊢ <;> omega

theorem ringCount_advance_tail {n : Nat} (hn : n ≤ ringCount c head tail) :
    ringCount c head ((tail + n) % c) = ringCount c head tail - n := by
  have below : n < c := hn.trans_lt (ringCount_lt hh ht)
  have next : (tail + n) % c < c := Nat.mod_lt _ (by omega)
  rw [ringCount_eq hh next]
  rw [ringCount_eq hh ht] at hn ⊢
  rw [mod_of_lt_two_mul (by omega)]
  split_ifs at hn ⊢ <;> omega

end

/-! ### The records in a stretch of the ring -/

/-- The records at the `n` places from `tail` on. -/
def ringEvents (m : Memory) (c tail n : Nat) : List EdgeEvent := (List.range n).map fun j => m.read ((tail + j) % c)

theorem queued_eq_ringEvents (s : State) :
    queued s = ringEvents s.slots (qcap s.cfg) s.qTail (ringCount (qcap s.cfg) s.qHead s.qTail) := rfl

theorem ringEvents_succ (m : Memory) (c tail n : Nat) :
    ringEvents m c tail (n + 1) = ringEvents m c tail n ++ [m.read ((tail + n) % c)] := by
  simp [ringEvents, List.range_succ]

theorem ringEvents_write_of_ne {m : Memory} {c tail n k : Nat} (e : EdgeEvent) (h : ∀ j < n, (tail + j) % c ≠ k) :
    ringEvents (m.write k e) c tail n = ringEvents m c tail n :=
  List.map_congr_left fun j hj => Memory.read_write_of_ne m (h j (List.mem_range.1 hj)) e

theorem ringEvents_drop (m : Memory) (c tail k n : Nat) :
    (ringEvents m c tail k).drop n = ringEvents m c ((tail + n) % c) (k - n) := by
  apply List.ext_getElem
  · simp [ringEvents]
  · intro j _ _
    simp [ringEvents, Nat.add_assoc]

/-! ### The queue's indices -/

/-- The indices are stored masked (R32). -/
abbrev IndicesMasked (s : State) : Prop := s.qHead < qcap s.cfg ∧ s.qTail < qcap s.cfg

theorem indicesMasked_of_queueInv {s : State} (h : QueueInv s) : IndicesMasked s := ⟨h.1, h.2.1⟩

theorem qFull_iff {s : State} (h : IndicesMasked s) : qFull s = true ↔ (s.qHead + 1) % qcap s.cfg = s.qTail := by
  rw [qFull, nextIdx_eq, headIdx_of_lt h.1, tailIdx_of_lt h.2, beq_iff_eq]

theorem qEmpty_iff {s : State} (h : IndicesMasked s) : qEmpty s = true ↔ s.qHead = s.qTail := by
  rw [qEmpty, headIdx_of_lt h.1, tailIdx_of_lt h.2, beq_iff_eq]

theorem length_queued (s : State) : (queued s).length = queueCount s := by simp [queued]

theorem queued_eq_nil_iff {s : State} (h : IndicesMasked s) : queued s = [] ↔ s.qHead = s.qTail := by
  rw [← List.length_eq_zero_iff, length_queued, queueCount_eq_ringCount, ringCount_eq_zero_iff h.1 h.2]

/-! ### ENQ -/

theorem enq_of_full {e : EdgeEvent} {s : State} (h : qFull s = true) :
    enq e s = { s with outcomes := s.outcomes ++ [.queueOverflow] } := if_pos h

theorem enq_of_room {e : EdgeEvent} {s : State} (h : IndicesMasked s) (room : (s.qHead + 1) % qcap s.cfg ≠ s.qTail) :
    enq e s = { s with slots := s.slots.write s.qHead e, qHead := (s.qHead + 1) % qcap s.cfg } := by
  rw [enq, if_neg (mt (qFull_iff h).1 room), nextIdx_eq, headIdx_of_lt h.1]
  rfl

/-- A write to the head's slot leaves the slots of the queued events alone, and its record comes last. -/
theorem queued_of_room {e : EdgeEvent} {s : State} (h : IndicesMasked s) (wf : s.slots.wf)
    (room : (s.qHead + 1) % qcap s.cfg ≠ s.qTail) :
    queued { s with slots := s.slots.write s.qHead e, qHead := (s.qHead + 1) % qcap s.cfg } = queued s ++ [e] := by
  obtain ⟨head, tail⟩ := h
  have count := ringCount_lt head tail
  have newest : (s.qTail + ringCount (qcap s.cfg) s.qHead s.qTail) % qcap s.cfg = s.qHead :=
    (place_eq_head_iff head tail count).2 rfl
  have others : ∀ j < ringCount (qcap s.cfg) s.qHead s.qTail, (s.qTail + j) % qcap s.cfg ≠ s.qHead :=
    fun j hj => mt (place_eq_head_iff head tail (hj.trans count)).1 hj.ne
  rw [queued_eq_ringEvents, queued_eq_ringEvents]
  show ringEvents (s.slots.write s.qHead e) _ s.qTail (ringCount _ ((s.qHead + 1) % qcap s.cfg) s.qTail) = _
  rw [ringCount_next_head head tail room, ringEvents_succ, newest, ringEvents_write_of_ne e others,
    Memory.read_write_self _ e wf]

/-- R154: ENQ drops the event where the queue is full, and appends it otherwise. -/
theorem enqueued_enq (e : EdgeEvent) {s : State} (h : QueueInv s) : Enqueued e s (enq e s) := by
  have masked := indicesMasked_of_queueInv h
  obtain ⟨-, -, -, wf, -⟩ := h
  refine ⟨fun full => enq_of_full ((qFull_iff masked).2 full), fun room => ?_⟩
  rw [enq_of_room masked room]
  exact ⟨rfl, Memory.read_write_self _ e wf, fun k hk => Memory.read_write_of_ne _ hk e, queued_of_room masked wf room⟩

/-- Settles O22. -/
theorem enqAppendsOrDropsTheNewest : Obligations.EnqAppendsOrDropsTheNewest :=
  fun e _ h => ⟨_, rfl, enqueued_enq e h⟩

/-! ### TICKENQ -/

theorem tickEnq_of_not_empty {s : State} (h : IndicesMasked s) (events : s.qHead ≠ s.qTail) : tickEnq s = s :=
  if_neg (mt (qEmpty_iff h).1 events)

theorem tickEnq_of_empty {s : State} (h : IndicesMasked s) (empty : s.qHead = s.qTail) :
    tickEnq s = enq (tickEvent s) s := if_pos ((qEmpty_iff h).2 empty)

/-- An empty queue is not full, for QCAP is at least 2. -/
theorem room_of_empty {s : State} (h : IndicesMasked s) (empty : s.qHead = s.qTail) :
    (s.qHead + 1) % qcap s.cfg ≠ s.qTail := by
  obtain ⟨head, tail⟩ := h
  have two := one_lt_qcap s.cfg
  rw [mod_of_lt_two_mul (by omega)]
  split <;> omega

theorem capLevel_eq (s : State) : capLevel s = if s.capIn then 1 else 0 := by
  unfold capLevel
  cases s.capIn <;> rfl

theorem joinHalves_toNat (hi lo : U16) : (joinHalves hi lo).toNat = hi.toNat * 65536 + lo.toNat := by
  rw [joinHalves, BitVec.toNat_append, ← Nat.shiftLeft_add_eq_or_of_lt lo.isLt, Nat.shiftLeft_eq]

/-- Settles O23: a Tick enqueued on an empty queue finds room, and is all that is queued. -/
theorem tickenqOnlyWhileTheQueueIsEmpty : Obligations.TickenqOnlyWhileTheQueueIsEmpty := by
  intro s h
  have masked := indicesMasked_of_queueInv h
  refine ⟨fun events => congrArg Host.Outcome.next (tickEnq_of_not_empty masked events), fun empty => ?_⟩
  have enqueued := enqueued_enq (tickEvent s) h
  obtain ⟨-, -, -, appended⟩ := enqueued.2 (room_of_empty masked empty)
  rw [(queued_eq_nil_iff masked).2 empty, List.nil_append] at appended
  exact ⟨_, tickEvent s, congrArg Host.Outcome.next (tickEnq_of_empty masked empty), enqueued, appended, rfl, rfl,
    capLevel_eq s, joinHalves_toNat _ _⟩

end Sys2Proof.Machine

/-! R155 to R157: the interrupt services that feed the queue. -/

namespace Sys2Proof.Machine

/-- An enabled service runs as entry, body and exit. -/
theorem service_of_enabled {src : IrqSource} {s : State} (body : State → State) (h : irqEnabled src s = true) :
    service src body s = irqExit (body (irqEnter src s)) := if_pos h

/-- `int_enable` plays no part in ENQ. -/
theorem irqExit_enq (e : EdgeEvent) (s : State) : irqExit (enq e s) = enq e (irqExit s) :=
  apply_ite irqExit (qFull s = true) _ _

theorem irqExit_tickEnq (s : State) : irqExit (tickEnq s) = tickEnq (irqExit s) := by
  unfold tickEnq
  rw [apply_ite irqExit, irqExit_enq]
  rfl

/-- A service that enqueues one event leaves what ENQ makes of the state with the source's pending bit cleared. -/
theorem service_enq {src : IrqSource} {s : State} (event : State → EdgeEvent) (h : irqEnabled src s = true) :
    service src (fun t => enq (event t) t) s = enq (event (irqEnter src s)) (irqExit (irqEnter src s)) := by
  rw [service_of_enabled _ h, irqExit_enq]

theorem irqExit_irqEnter_capt {s : State} (h : s.intEnable = true) :
    irqExit (irqEnter .capt s) = { s with pendCapt := false } := by
  show { s with intEnable := true, pendCapt := false } = { s with pendCapt := false }
  rw [← h]

theorem irqExit_irqEnter_pca {s : State} (h : s.intEnable = true) :
    irqExit (irqEnter .pca s) = { s with pendPca := false } := by
  show { s with intEnable := true, pendPca := false } = { s with pendPca := false }
  rw [← h]

theorem captEvent_irqEnter (s : State) :
    captEvent (irqEnter .capt s) =
      { source := .timer, tick := false, level := if s.capIn then 1 else 0, timestamp := timestampAt s s.icr } := by
  rw [← capLevel_eq, ← stamp_eq_timestampAt]
  rfl

theorem pcaEvent_irqEnter (s : State) :
    pcaEvent (irqEnter .pca s) =
      { source := .pinGroupA, tick := false, level := s.pgaIn, timestamp := timestampAt s s.hardwareCounter } := by
  rw [← stamp_eq_timestampAt]
  rfl

/-- Settles O18: entry and exit around ENQ clear the pending bit alone. -/
theorem isrCaptEnqueuesLevelAndLatchTime : Obligations.IsrCaptEnqueuesLevelAndLatchTime := by
  intro s inv enabled pending
  have ready : irqEnabled .capt s = true := by simp [irqEnabled, irqPending, irqAbove, enabled, pending]
  refine ⟨_, rfl, ?_⟩
  rw [service_enq captEvent ready, irqExit_irqEnter_capt enabled, captEvent_irqEnter]
  exact enqueued_enq _ inv

/-- Settles O19: entry and exit around ENQ clear the pending bit alone. -/
theorem isrPcaEnqueuesLevelsAndServiceTime : Obligations.IsrPcaEnqueuesLevelsAndServiceTime := by
  intro s inv enabled pending noCapt
  have ready : irqEnabled .pca s = true := by simp [irqEnabled, irqPending, irqAbove, enabled, pending, noCapt]
  refine ⟨_, rfl, ?_⟩
  rw [service_enq pcaEvent ready, irqExit_irqEnter_pca enabled, pcaEvent_irqEnter]
  exact enqueued_enq _ inv

/-- ISR_TOV from entry to exit: TICKENQ of the state with the wrap counted. -/
theorem service_tov {s : State} (enabled : s.intEnable = true) (h : irqEnabled .tov s = true) :
    service .tov tovBody s = tickEnq { s with overflowCount := s.overflowCount + 1, ovfFlag := false } := by
  rw [service_of_enabled _ h, tovBody, irqExit_tickEnq]
  show tickEnq { s with overflowCount := s.overflowCount + 1, ovfFlag := false, intEnable := true } = _
  rw [← enabled]

/-- Without a pending wrap the Tick's timestamp is the counter's. -/
theorem tickEvent_of_not_pending {s : State} (h : s.ovfFlag = false) :
    tickEvent s = { source := .timer, tick := true, level := if s.capIn then 1 else 0,
                    timestamp := timestampAt s s.hardwareCounter } := by
  rw [← capLevel_eq, ← stamp_eq_timestampAt]
  simp [tickEvent, stamp, h]

/-- Settles O21: TICKENQ of the state with the wrap counted, by whether the queue is empty. -/
theorem isrTovCountsTheWrapAndOffersATick : Obligations.IsrTovCountsTheWrapAndOffersATick := by
  intro s inv enabled pending noCapt noPca noWg0 noWg1 u
  have ready : irqEnabled .tov s = true := by
    simp [irqEnabled, irqPending, irqAbove, enabled, pending, noCapt, noPca, noWg0, noWg1]
  have served : exec .isrTov s = .next (tickEnq u) := congrArg Host.Outcome.next (service_tov enabled ready)
  have counted : QueueInv u := inv
  have masked := indicesMasked_of_queueInv counted
  refine ⟨fun events => ?_, fun empty => ⟨_, served, ?_⟩⟩
  · rw [served, tickEnq_of_not_empty masked events]
  · rw [tickEnq_of_empty masked empty, tickEvent_of_not_pending (s := u) rfl]
    exact enqueued_enq _ counted

end Sys2Proof.Machine

/-! R158 to R162: the drain. -/

namespace Sys2Proof.Machine

/-! ### The drain lock -/

/-- Inside a WGPOLL or a transmission an operation of the drain is blocked (R356). -/
theorem whenever_not_txFree {s : State} (f : State → State) (h : s.wgTaken ≠ none ∨ s.txRest ≠ []) :
    whenever (txFree s) f s = s := by
  have blocked : txFree s = false := Bool.eq_false_iff.2 fun free => by
    obtain ⟨taken, rest⟩ := (txFree_iff s).1 free
    exact h.elim (absurd taken) (absurd rest)
  rw [blocked, whenever_false]

theorem whenever_txFree {s : State} (f : State → State) (taken : s.wgTaken = none) (rest : s.txRest = []) :
    whenever (txFree s) f s = f s := by
  rw [(txFree_iff s).2 ⟨taken, rest⟩, whenever_true]

theorem whenever_not_inDrain {s : State} (f : State → State)
    (h : s.drainLock = false ∨ s.wgTaken ≠ none ∨ s.txRest ≠ []) : whenever (inDrain s) f s = s := by
  have blocked : inDrain s = false := Bool.eq_false_iff.2 fun inside => by
    obtain ⟨lock, taken, rest⟩ := (inDrain_iff s).1 inside
    exact h.elim (fun free => by rw [lock] at free; cases free) fun tx => tx.elim (absurd taken) (absurd rest)
  rw [blocked, whenever_false]

theorem drain_of_locked {s : State} (h : s.drainLock = true) : drain s = s := by
  unfold drain
  rw [drainBegin_of_locked h]
  rfl

/-- Settles O24: by the enablement of the three operations, and by whether the lock is held. -/
theorem drainLockIsTakenOnceAndReleased : Obligations.DrainLockIsTakenOnceAndReleased := by
  refine fun s => ⟨fun taken rest unlocked => ⟨?_, ?_⟩, fun taken rest locked => ⟨?_, ?_, ?_⟩, fun tx => ⟨?_, ?_⟩⟩
  · rw [exec_drainBegin ⟨unlocked, taken, rest⟩, drainBegin_of_unlocked unlocked]
    rfl
  · exact congrArg Host.Outcome.next (whenever_not_inDrain _ (.inl unlocked))
  · refine congrArg Host.Outcome.next ((whenever_txFree _ taken rest).trans ?_)
    rw [drainBegin_of_locked locked]
    rfl
  · exact congrArg Host.Outcome.next ((whenever_txFree _ taken rest).trans (drain_of_locked locked))
  · exact exec_drainEnd ((inDrain_iff s).2 ⟨locked, taken, rest⟩)
  · exact congrArg Host.Outcome.next (whenever_not_txFree _ tx)
  · exact congrArg Host.Outcome.next (whenever_not_inDrain _ (.inr tx))

/-! ### Dispatch and the fields beside the registry -/

/-- `g` writes neither the registry nor the log, and nothing that depends on them. -/
structure SparesRegistry (g : State → State) : Prop where
  inst     : ∀ s, (g s).inst = s.inst
  withInst : ∀ i J os s, g (withInst i J os s) = withInst i J os (g s)

/-- Dispatch to one entry reads and writes the registry and the log alone. -/
theorem SparesRegistry.dispatch {g : State → State} (h : SparesRegistry g) (i : Nat) (e : EdgeEvent) (s : State) :
    dispatch i e (g s) = g (dispatch i e s) := by
  rcases onInst_cases i (dispatchInst e) s with ⟨I, there, set⟩ | ⟨absent, same⟩
  · have there' : (g s).inst[i]? = some I := by rw [h.inst, there]
    calc Machine.dispatch i e (g s)
        = Machine.withInst i (dispatchInst e I).1 (dispatchInst e I).2 (g s) := onInst_of_some _ there'
      _ = g (Machine.withInst i (dispatchInst e I).1 (dispatchInst e I).2 s) := (h.withInst _ _ _ s).symm
      _ = g (Machine.dispatch i e s) := congrArg g set.symm
  · have same' : onInst i (dispatchInst e) (g s) = g s := by rw [onInst, h.inst, absent]
    exact same'.trans (congrArg g same.symm)

/-- The dispatch of one event after the other, each to the whole registry. -/
def dispatchEach (es : List EdgeEvent) (s : State) : State := es.foldl (fun t e => dispatchAll e t) s

theorem SparesRegistry.dispatchAll {g : State → State} (h : SparesRegistry g) (e : EdgeEvent) (s : State) :
    dispatchAll e (g s) = g (dispatchAll e s) := by
  unfold Machine.dispatchAll
  rw [h.inst]
  exact List.foldl_hom g fun t i => h.dispatch i e t

theorem SparesRegistry.dispatchEach {g : State → State} (h : SparesRegistry g) (es : List EdgeEvent) (s : State) :
    dispatchEach es (g s) = g (dispatchEach es s) :=
  List.foldl_hom g fun t e => h.dispatchAll e t

/-- Dispatch changes the registry and the log only, and no entry's number. -/
theorem dispatchEach_eq (es : List EdgeEvent) (s : State) :
    ∃ is os, dispatchEach es s = { s with inst := is, outcomes := s.outcomes ++ os } ∧ is.length = s.inst.length := by
  induction es generalizing s with
  | nil => exact ⟨s.inst, [], by rw [List.append_nil]; rfl, rfl⟩
  | cons e es ih =>
    obtain ⟨is, os, first, count⟩ := dispatchAll_eq e s
    obtain ⟨is', os', others, count'⟩ := ih (dispatchAll e s)
    refine ⟨is', os ++ os', ?_, ?_⟩
    · rw [dispatchEach, List.foldl_cons, ← dispatchEach, others]
      simp only [first, List.append_assoc]
    · rw [count', first, count]

/-- The DISPATCH operations of R160, issued one by one. -/
theorem runOps_dispatch_map (e : EdgeEvent) (is : List Nat) (s : State) :
    runOps (is.map fun i => .dispatch i e) s = is.foldl (fun t i => dispatch i e t) s := by
  induction is generalizing s with
  | nil => rfl
  | cons i is ih => rw [List.map_cons, runOps_cons_of_exec _ rfl, ih, List.foldl_cons]

theorem runOps_dispatchOps (e : EdgeEvent) (s : State) :
    runOps (dispatchOps s.inst.length e) s = dispatchAll e s := runOps_dispatch_map e _ s

theorem runOps_flatMap_dispatchOps (es : List EdgeEvent) (s : State) :
    runOps (es.flatMap (dispatchOps s.inst.length)) s = dispatchEach es s := by
  induction es generalizing s with
  | nil => rfl
  | cons e es ih =>
    obtain ⟨is, os, first, count⟩ := dispatchAll_eq e s
    have sameCount : (dispatchAll e s).inst.length = s.inst.length := by rw [first, count]
    rw [List.flatMap_cons, runOps_append, runOps_dispatchOps, ← sameCount, ih]
    rfl

/-! ### DRAIN_STEP -/

/-- `s` at another place of a drain. -/
def atPlace (tail n : Nat) (s : State) : State := { s with qTail := tail, drainN := n }

theorem atPlace_sparesRegistry (tail n : Nat) : SparesRegistry (atPlace tail n) :=
  ⟨fun _ => rfl, fun _ _ _ _ => rfl⟩

theorem atPlace_self {s : State} (h : IndicesMasked s) : atPlace ((s.qTail + 0) % qcap s.cfg) (s.drainN + 0) s = s := by
  rw [Nat.add_zero, Nat.mod_eq_of_lt h.2]
  rfl

theorem drainStep_of_done_or_empty {s : State} (h : IndicesMasked s)
    (done : s.drainN = s.cfg.drainMax ∨ s.qHead = s.qTail) : drainStep s = (s, false) := if_pos (done.imp_right (qEmpty_iff h).2)

theorem drainStep_of_event {s : State} (h : IndicesMasked s) (more : s.drainN ≠ s.cfg.drainMax)
    (events : s.qHead ≠ s.qTail) :
    drainStep s =
      (atPlace ((s.qTail + 1) % qcap s.cfg) (s.drainN + 1) (dispatchAll (s.slots.read s.qTail) s), true) := by
  rw [drainStep, if_neg (not_or.2 ⟨more, mt (qEmpty_iff h).1 events⟩), tailIdx_of_lt h.2, nextIdx_eq,
    ← (atPlace_sparesRegistry _ _).dispatchAll]
  rfl

/-- Settles O25: DRAIN_STEP by its enablement and by its two cases. -/
theorem drainStepDispatchesTheOldestEvent : Obligations.DrainStepDispatchesTheOldestEvent := by
  refine fun s => ⟨fun outside => congrArg Host.Outcome.next (whenever_not_inDrain _ outside),
    fun inv taken rest locked done => ?_, fun inv taken rest locked more events => ?_⟩
  · rw [exec_drainStep ((inDrain_iff s).2 ⟨locked, taken, rest⟩),
      drainStep_of_done_or_empty (indicesMasked_of_queueInv inv) done]
    rfl
  · rw [exec_drainStep ((inDrain_iff s).2 ⟨locked, taken, rest⟩),
      drainStep_of_event (indicesMasked_of_queueInv inv) more events, runOps_dispatchOps]
    rfl

/-! ### DRAIN -/

/-- Moving the tail on by `n` drops the `n` oldest events. -/
theorem queued_of_tail_advanced {s t : State} {n : Nat} (h : IndicesMasked s) (hn : n ≤ (queued s).length)
    (cfg : t.cfg = s.cfg) (slots : t.slots = s.slots) (head : t.qHead = s.qHead)
    (tail : t.qTail = (s.qTail + n) % qcap s.cfg) : queued t = (queued s).drop n := by
  rw [length_queued, queueCount_eq_ringCount] at hn
  rw [queued_eq_ringEvents, queued_eq_ringEvents, ringEvents_drop, cfg, slots, head, tail,
    ringCount_advance_tail h.1 h.2 hn]

/-- The oldest event is the one at the tail. -/
theorem queued_eq_cons {s : State} (h : IndicesMasked s) (events : s.qHead ≠ s.qTail) :
    queued s = s.slots.read s.qTail :: (queued s).drop 1 := by
  have nonempty : 0 < (queued s).length := List.length_pos_iff.2 (mt (queued_eq_nil_iff h).1 events)
  have oldest : (queued s)[0] = s.slots.read s.qTail := by simp [queued, Nat.mod_eq_of_lt h.2]
  calc queued s = (queued s).drop 0 := List.drop_zero.symm
    _ = (queued s)[0] :: (queued s).drop 1 := List.drop_eq_getElem_cons nonempty
    _ = s.slots.read s.qTail :: (queued s).drop 1 := by rw [oldest]

/-- What a drain step that dispatches leaves of the queue. -/
theorem queued_after_event {s t : State} (h : IndicesMasked s) (events : s.qHead ≠ s.qTail)
    (ht : t = atPlace ((s.qTail + 1) % qcap s.cfg) (s.drainN + 1) (dispatchAll (s.slots.read s.qTail) s)) :
    t.cfg = s.cfg ∧ IndicesMasked t ∧ queued t = (queued s).drop 1 := by
  obtain ⟨is, os, dispatched, -⟩ := dispatchAll_eq (s.slots.read s.qTail) s
  have one : 1 ≤ (queued s).length := by rw [queued_eq_cons h events, List.length_cons]; omega
  rw [dispatched] at ht
  subst ht
  exact ⟨rfl, ⟨h.1, Nat.mod_lt _ (Nat.zero_lt_of_lt h.1)⟩, queued_of_tail_advanced h one rfl rfl rfl rfl⟩

/-- The loop of R162, where the loop's fuel is what the bound leaves: it dispatches the oldest events, as many as the
fuel, or all there are. -/
theorem drainLoop_eq (n : Nat) {s : State} (h : IndicesMasked s) (bound : s.drainN + n = s.cfg.drainMax) :
    drainLoop n s = atPlace ((s.qTail + min n (queued s).length) % qcap s.cfg) (s.drainN + min n (queued s).length)
      (dispatchEach ((queued s).take n) s) := by
  induction n generalizing s with
  | zero => rw [Nat.zero_min]; exact (atPlace_self h).symm
  | succ n ih =>
    by_cases empty : s.qHead = s.qTail
    · rw [drainLoop, drainStep_of_done_or_empty h (.inr empty), (queued_eq_nil_iff h).2 empty, List.length_nil,
        Nat.min_zero]
      exact (atPlace_self h).symm
    · have step := drainStep_of_event h (by omega) empty
      generalize ht : atPlace ((s.qTail + 1) % qcap s.cfg) (s.drainN + 1) (dispatchAll (s.slots.read s.qTail) s) = t
        at step
      obtain ⟨cfg, masked, others⟩ := queued_after_event h empty ht.symm
      have tail : t.qTail = (s.qTail + 1) % qcap s.cfg := by rw [← ht]; rfl
      have count : t.drainN = s.drainN + 1 := by rw [← ht]; rfl
      have places : (t.qTail + min n (queued t).length) % qcap t.cfg =
          (s.qTail + (min n (queued t).length + 1)) % qcap s.cfg := by
        rw [cfg, tail, Nat.mod_add_mod, Nat.add_assoc, Nat.add_comm 1]
      rw [drainLoop, step, if_pos rfl, ih masked (by rw [count, cfg]; omega), places, count, queued_eq_cons h empty,
        ← others, List.length_cons, List.take_succ_cons, Nat.add_min_add_right, Nat.add_assoc, Nat.add_comm 1]
      have dispatched : dispatchEach ((queued t).take n) t = atPlace ((s.qTail + 1) % qcap s.cfg) (s.drainN + 1)
          (dispatchEach ((queued t).take n) (dispatchAll (s.slots.read s.qTail) s)) := by
        rw [← (atPlace_sparesRegistry _ _).dispatchEach, ht]
      rw [dispatched]
      rfl

theorem dispatchEach_of_begun (es : List EdgeEvent) (s : State) :
    dispatchEach es { s with drainLock := true, drainN := 0, intEnable := true } =
      { dispatchEach es s with drainLock := true, drainN := 0, intEnable := true } :=
  SparesRegistry.dispatchEach (g := fun u => { u with drainLock := true, drainN := 0, intEnable := true })
    ⟨fun _ => rfl, fun _ _ _ _ => rfl⟩ es s

theorem drainEnd_sparesRegistry : SparesRegistry drainEnd := ⟨fun _ => rfl, fun _ _ _ _ => rfl⟩

theorem drainEnd_of_unlocked {s : State} (h : s.drainLock = false) : drainEnd s = s := by
  rw [drainEnd, ← h]

/-- DRAIN between operations: the events are dispatched on the state as it was. -/
theorem exec_drain_eq {s : State} (h : IndicesMasked s) (between : BetweenOperations s) :
    exec .drain s = .next { dispatchEach ((queued s).take s.cfg.drainMax) s with
      intEnable := true, drainN := min s.cfg.drainMax (queued s).length,
      qTail := (s.qTail + min s.cfg.drainMax (queued s).length) % qcap s.cfg } := by
  have loop := drainLoop_eq s.cfg.drainMax (s := { s with drainLock := true, drainN := 0, intEnable := true }) h
    (Nat.zero_add _)
  have released : drainEnd (dispatchEach ((queued s).take s.cfg.drainMax) s) =
      dispatchEach ((queued s).take s.cfg.drainMax) s := by
    rw [← drainEnd_sparesRegistry.dispatchEach, drainEnd_of_unlocked between.1]
  rw [exec_drain between, drainBegin_of_unlocked between.1, loop, dispatchEach_of_begun, Nat.zero_add, ← released]
  rfl

/-- Inside a composite operation DRAIN is refused by the lock or blocked (R159, R356). -/
theorem exec_drain_of_not_between {s : State} (inside : ¬ BetweenOperations s) : exec .drain s = .next s := by
  refine congrArg Host.Outcome.next ?_
  rcases whenever_cases (txFree s) drain s with ⟨free, drained⟩ | ⟨-, blocked⟩
  · have locked : s.drainLock = true := by
      rw [← Bool.not_eq_false]
      exact fun unlocked => inside ⟨unlocked, (txFree_iff s).1 free⟩
    rw [drained, drain_of_locked locked]
  · exact blocked

/-- Settles O26: DRAIN by its enablement, and its loop by induction on what is left of the bound. -/
theorem drainDispatchesInOrderUpToTheBound : Obligations.DrainDispatchesInOrderUpToTheBound := by
  refine fun s => ⟨exec_drain_of_not_between, fun inv between =>
    ⟨_, exec_drain_eq (indicesMasked_of_queueInv inv) between, ?_, ?_⟩⟩
  · rw [runOps_flatMap_dispatchOps, ← List.take_eq_take_min]
  · obtain ⟨is, os, dispatched, -⟩ := dispatchEach_eq ((queued s).take s.cfg.drainMax) s
    rw [dispatched]
    exact queued_of_tail_advanced (indicesMasked_of_queueInv inv) (Nat.min_le_right _ _) rfl rfl rfl rfl

end Sys2Proof.Machine

/-! R201 to R207: the registry's dispatch. -/

namespace Sys2Proof.Machine

/-! ### Operations on two entries of the registry (R202) -/

theorem onInst_of_none {i : Nat} {s : State} (f : Instance → Instance × List ErrorOutcome) (h : s.inst[i]? = none) :
    onInst i f s = s := by
  rw [onInst, h]

/-- An operation on `inst[i]` leaves every other entry as it is. -/
theorem onInst_inst_of_ne {i k : Nat} (ne : k ≠ i) (f : Instance → Instance × List ErrorOutcome) (s : State) :
    (onInst i f s).inst[k]? = s.inst[k]? := by
  rcases onInst_cases i f s with ⟨I, -, set⟩ | ⟨-, same⟩
  · rw [set]
    exact List.getElem?_set_ne ne.symm
  · rw [same]

/-- Operations on two entries commute but for the order in which they log. -/
theorem onInst_comm {i j : Nat} (ne : i ≠ j) (f g : Instance → Instance × List ErrorOutcome) (s : State) :
    { onInst i f (onInst j g s) with outcomes := (onInst j g (onInst i f s)).outcomes } = onInst j g (onInst i f s) ∧
      (onInst i f (onInst j g s)).outcomes.Perm (onInst j g (onInst i f s)).outcomes := by
  have lookI := onInst_inst_of_ne ne g s
  have lookJ := onInst_inst_of_ne ne.symm f s
  rcases onInst_cases i f s with ⟨I, hI, first⟩ | ⟨hI, first⟩
  · rcases onInst_cases j g s with ⟨J, hJ, second⟩ | ⟨hJ, second⟩
    · rw [onInst_of_some f (lookI.trans hI), onInst_of_some g (lookJ.trans hJ), first, second]
      refine ⟨by rw [List.set_comm _ _ ne], ?_⟩
      simpa only [List.append_assoc] using List.perm_append_comm.append_left s.outcomes
    · rw [onInst_of_none g (lookJ.trans hJ), second]
      exact ⟨rfl, .refl _⟩
  · rw [onInst_of_none f (lookI.trans hI), first]
    exact ⟨rfl, .refl _⟩

/-- Settles O30: the two orders by the commutation of operations on two entries. -/
theorem dispatchesToTwoInstancesCommute : Obligations.DispatchesToTwoInstancesCommute := by
  intro i j d e s ne
  have run (a b : Nat) (x y : EdgeEvent) :
      runOps [.dispatch a x, .dispatch b y] s = dispatch b y (dispatch a x s) := rfl
  obtain ⟨same, perm⟩ := onInst_comm ne (dispatchInst d) (dispatchInst e) s
  refine ⟨_, _, run i j d e, run j i e d, same, perm, fun k ki kj => ?_⟩
  exact (onInst_inst_of_ne kj _ _).trans (onInst_inst_of_ne ki _ _)

/-! ### The edge kind (R204) -/

theorem edgeKind_rise {old new : U8} (h : new ≠ 0 ∧ old = 0) : edgeKind old new false = .rise := by
  rw [edgeKind, if_neg Bool.false_ne_true, if_pos h]

theorem edgeKind_fall {old new : U8} (h : new = 0 ∧ old ≠ 0) : edgeKind old new false = .fall := by
  rw [edgeKind, if_neg Bool.false_ne_true, if_neg fun rise => rise.1 h.1, if_pos h]

/-- Settles O31: with a one-bit mask a changed level has 0 on exactly one side. -/
theorem edgekindNamesTheTransition : Obligations.EdgekindNamesTheTransition := by
  refine fun old new s => ⟨edgeKind old new false, .tick, rfl, rfl, rfl, fun hn ho => edgeKind_rise ⟨hn, ho⟩,
    fun hn ho => edgeKind_fall ⟨hn, ho⟩, fun mask _ before after changed => ?_⟩
  rcases before with rfl | rfl
  · exact .inl ⟨edgeKind_rise ⟨changed, rfl⟩, rfl⟩
  · have low : new = 0 := after.resolve_right changed
    exact .inr ⟨edgeKind_fall ⟨low, fun zero => changed (low.trans zero.symm)⟩, low⟩

/-! ### The conversion (R206) -/

/-- The signed reading of a delta. -/
theorem toInt_delta (d : U32) :
    d.toInt = if d.toNat < 2147483648 then (d.toNat : Int) else (d.toNat : Int) - 4294967296 := by
  rw [BitVec.toInt_eq_toNat_cond]
  split <;> split <;> omega

theorem convUnits_ns500 (d : U32) :
    2 * convUnits .ns500 d ≤ d.toInt ∧ d.toInt < 2 * convUnits .ns500 d + 2 := by
  rw [convUnits]
  omega

theorem convUnits_ns125 (d : U32) :
    8 * convUnits .ns125 d ≤ d.toNat ∧ (d.toNat : Int) < 8 * convUnits .ns125 d + 8 := by
  have eighth : (d >>> 3).toNat = d.toNat / 8 := by rw [BitVec.toNat_ushiftRight, Nat.shiftRight_eq_div_pow]
  rw [convUnits, eighth]
  omega

/-- The clamp of R206 in its three ranges. -/
theorem convDelta_spec (units : Int) :
    (-32768 ≤ units → units ≤ 32767 → convDelta units = units) ∧
    (units < -32768 → convDelta units = -32768) ∧ (32767 < units → convDelta units = 32767) := by
  unfold convDelta clamp
  omega

/-- Settles O32: rate by rate, then the clamp. -/
theorem convScalesFloorsAndClamps : Obligations.ConvScalesFloorsAndClamps := by
  refine fun rate d s => ⟨convUnits rate d, _, rfl, ?_, convDelta_spec _⟩
  rw [← toInt_delta]
  refine ⟨?_, ?_, ?_, ?_⟩ <;> rintro rfl
  · rfl
  · rfl
  · exact convUnits_ns500 d
  · exact convUnits_ns125 d

/-! ### The discard test (R203) -/

/-- The four conditions. -/
theorem discard_iff (e : EdgeEvent) (I : Instance) :
    discard e I = true ↔
      (e.tick = true ∧ I.inWord = .idle) ∨ (e.tick = true ∧ I.protocol = .infrared) ∨
      (e.tick = false ∧ e.source ≠ I.source) ∨
      (e.tick = false ∧ e.source = I.source ∧ e.level &&& I.mask = I.lastLevel) := by
  simp only [discard, Bool.or_eq_true, Bool.and_eq_true, Bool.not_eq_true', beq_iff_eq, bne_iff_ne, or_assoc, and_assoc]

/-- With the one protocol there is (R208), every Tick is discarded. -/
theorem discard_iff_infrared (e : EdgeEvent) (I : Instance) :
    discard e I = true ↔ e.tick = true ∨ e.source ≠ I.source ∨ e.level &&& I.mask = I.lastLevel := by
  have infrared : I.protocol = .infrared := by cases I.protocol; rfl
  rw [discard_iff]
  cases e.tick
  · by_cases source : e.source = I.source <;> simp [source]
  · simp [infrared]

/-- A discarded event changes nothing (R203). -/
theorem dispatch_of_discard {i : Nat} {e : EdgeEvent} {s : State} {I : Instance} (there : s.inst[i]? = some I)
    (h : discard e I = true) : dispatch i e s = s := by
  have unchanged : dispatchInst e I = (I, []) := if_pos h
  calc dispatch i e s = withInst i (dispatchInst e I).1 (dispatchInst e I).2 s := onInst_of_some _ there
    _ = withInst i I [] s := by rw [unchanged]
    _ = s := withInst_self there

/-- DISCARD where `i` is below `n_inst`. -/
theorem exec_discard_of_some {i : Nat} {s : State} {I : Instance} (e : EdgeEvent) (there : s.inst[i]? = some I) :
    exec (.discard i e) s = .next { s with result := .discarded (discard e I) } := by
  show execDiscard i e s = _
  rw [execDiscard, there]
  rfl

/-- Settles O28: the test and its four conditions. -/
theorem discardTestsTheFourConditions : Obligations.DiscardTestsTheFourConditions :=
  fun _ e _ I there => ⟨discard e I, exec_discard_of_some e there, discard_iff e I,
    fun h => congrArg Host.Outcome.next (dispatch_of_discard there h)⟩

/-! ### A handled event (R201, R207) -/

/-- A handled event is recorded in the entry, and then the entry's handler, which is IR_EDGE (R208), runs on it. -/
theorem handle_eq (e : EdgeEvent) (I : Instance) :
    handle e I = irEdge (edgeKind I.lastLevel (e.level &&& I.mask) e.tick)
      (convDelta (convUnits I.clockRate (e.timestamp - I.lastTs))) (convUnits I.clockRate (e.timestamp - I.lastTs))
      e.timestamp { I with lastLevel := e.level &&& I.mask, lastTs := e.timestamp } := by
  unfold handle
  cases I.protocol
  rfl

/-- Of two writes to one entry the second stays. -/
theorem withInst_set (i : Nat) (I J : Instance) (os : List ErrorOutcome) (s : State) :
    withInst i J os { s with inst := s.inst.set i I } = withInst i J os s := by
  rw [withInst, List.set_set, withInst]

/-- DISPATCH of an event that is not discarded is IR_EDGE on the entry that has recorded it. -/
theorem exec_dispatch_of_handled {i : Nat} {e : EdgeEvent} {s : State} {I : Instance} (there : s.inst[i]? = some I)
    (h : ¬ discard e I = true) :
    exec (.dispatch i e) s =
      exec (.irEdge i (edgeKind I.lastLevel (e.level &&& I.mask) e.tick)
          (convDelta (convUnits I.clockRate (e.timestamp - I.lastTs)))
          (convUnits I.clockRate (e.timestamp - I.lastTs)) e.timestamp)
        { s with inst := s.inst.set i { I with lastLevel := e.level &&& I.mask, lastTs := e.timestamp } } := by
  have recorded (K : Instance) : { s with inst := s.inst.set i K }.inst[i]? = some K := by
    obtain ⟨bound, -⟩ := List.getElem?_eq_some_iff.1 there
    exact List.getElem?_set_self bound
  have handled : dispatchInst e I = handle e I := if_neg h
  calc exec (.dispatch i e) s
      = .next (withInst i (dispatchInst e I).1 (dispatchInst e I).2 s) :=
        congrArg Host.Outcome.next (onInst_of_some _ there)
    _ = _ := by rw [exec_irEdge_of_some _ _ _ _ (recorded _), withInst_set, handled, handle_eq]

/-- Settles O29: by the discard test, with the values that EDGEKIND and CONV return. -/
theorem dispatchRecordsThenHandles : Obligations.DispatchRecordsThenHandles := by
  refine fun i e s I there => ⟨fun discarded => ?_, fun tick source changed => ?_⟩
  · exact congrArg Host.Outcome.next (dispatch_of_discard there ((discard_iff_infrared e I).2 discarded))
  · have kept : ¬ discard e I = true := by simp [discard_iff_infrared, tick, source, changed]
    have handled := exec_dispatch_of_handled there kept
    rw [tick] at handled
    exact ⟨_, _, _, _, _, _, rfl, rfl, rfl, rfl, rfl, handled⟩

end Sys2Proof.Machine

/-! R239: the registry's entries, and what every step keeps of them. -/

namespace Sys2Proof.Machine

/-! ### What one step performs -/

/-- What a step performs, on a state whose next input item has been taken off. -/
inductive StepKind (s t : State) : Prop
  | nothing (h : t = s)
  | whole (i : Instr) (hi : i.agent ≠ .sub) (h : exec i s = .next t)
  | first (i : Instr) (h : startOp i s = some t)
  | next (h : t = resume s)
  | provider (code : Int) (h : t = configure code s)

theorem issueWord_kind {w : SelectWord} {s t : State} (h : issueWord w s = .next t) : StepKind s t := by
  cases hw : decode w with
  | ok i => exact .whole i (decode_agent hw) ((issueWord_of_decode s hw).symm.trans h)
  | error e =>
    rw [issueWord_of_reject s hw] at h
    cases h
    exact .nothing rfl

theorem startWord_kind {w : SelectWord} {s t : State} (h : startWord w s = .next t) : StepKind s t := by
  cases hw : decode w with
  | ok i =>
    cases hu : startOp i s with
    | some u =>
      rw [startWord_of_startOp hw hu] at h
      cases h
      exact .first i hu
    | none => exact .whole i (decode_agent hw) ((startWord_of_startOp_none hw hu).symm.trans h)
  | error e =>
    rw [startWord_of_reject s hw] at h
    cases h
    exact .nothing rfl

/-- Every step performs an operation that a word selects, a micro-step, the provider's choice, or nothing. -/
theorem step_kind {s t : State} (h : step s = .next t) : StepKind { s with stim := s.stim.tail } t := by
  cases hs : s.stim with
  | nil =>
    unfold step takeNext at h
    rw [hs] at h
    cases h
    exact .nothing (by rw [List.tail_nil, ← hs])
  | cons x rest =>
    rw [step_of_stim hs] at h
    match x with
    | .issue w => exact issueWord_kind h
    | .start w => exact startWord_kind h
    | .resume => cases h; exact .next rfl
    | .configure code => cases h; exact .provider code rfl

/-! ### What leaves the registry alone -/

theorem whenever_inst {f : State → State} {s : State} (b : Bool) (h : (f s).inst = s.inst) :
    (whenever b f s).inst = s.inst := by
  rcases whenever_cases b f s with ⟨-, done⟩ | ⟨-, blocked⟩
  · rw [done, h]
  · rw [blocked]

@[simp] theorem txStep_inst (m : TxStep) (s : State) : (txStep m s).inst = s.inst := by rw [txStep_eq]

@[simp] theorem txRun_inst (ms : List TxStep) (s : State) : (txRun ms s).inst = s.inst := by rw [txRun_eq]

@[simp] theorem txStart_inst (ms : List TxStep) (s : State) : (txStart ms s).inst = s.inst := by
  cases ms with
  | nil => rfl
  | cons m rest => exact txStep_inst m s

@[simp] theorem wgTake_inst (s : State) : (wgTake s).1.inst = s.inst := by
  rcases wgTake_cases s with ⟨-, h⟩ | ⟨-, h⟩ <;> rw [h]

@[simp] theorem wgPoll_inst (s : State) : (wgPoll s).inst = s.inst := by
  have take := wgTake_inst s
  unfold wgPoll
  split
  next t h => rw [h] at take; exact take
  next t msg h => rw [h] at take; exact (txRun_inst _ _).trans take

@[simp] theorem wgStart_inst (s : State) : (wgStart s).inst = s.inst := by
  unfold wgStart
  rcases wgTake_cases s with ⟨-, h⟩ | ⟨-, h⟩
  · rw [h]
  · rw [h]; rfl

@[simp] theorem resume_inst (s : State) : (resume s).inst = s.inst := by
  unfold resume
  split
  · exact txStart_inst _ _
  · split
    · rfl
    · exact txStep_inst _ _

@[simp] theorem drainBegin_inst (s : State) : (drainBegin s).1.inst = s.inst := by
  unfold drainBegin
  split <;> rfl

@[simp] theorem configure_inst (code : Int) (s : State) : (configure code s).inst = s.inst := by
  unfold configure
  split <;> rfl

/-- No first micro-step of a composite operation touches the registry. -/
theorem startOp_inst {i : Instr} {s t : State} (h : startOp i s = some t) : t.inst = s.inst := by
  cases i with
  | tx32 | txcred | txkey => cases h; exact whenever_inst _ (txStart_inst _ s)
  | wgpoll => cases h; exact whenever_inst _ (wgStart_inst s)
  | drain => cases h; exact whenever_inst _ (drainBegin_inst s)
  | _ => cases h

/-! ### What every step keeps of every entry -/

/-- Every entry of the registry has `P`. -/
abbrev EveryInstance (P : Instance → Prop) (s : State) : Prop := ∀ I ∈ s.inst, P I

/-- The three operations that write an entry keep `P`: dispatch of an event, IRREAD, and REGISTER, which makes one. -/
structure KeptByRegistryOps (P : Instance → Prop) : Prop where
  dispatched : ∀ e I, P I → P (dispatchInst e I).1
  read       : ∀ I, P I → P (irReadInst I).2
  registered : ∀ source protocol mask rate, registerLegal source mask = true →
    P (newInstance source protocol mask rate)

section
variable {P : Instance → Prop} {s t : State}

theorem EveryInstance.of_inst_eq (hs : EveryInstance P s) (h : t.inst = s.inst) : EveryInstance P t := by
  rwa [EveryInstance, h]

theorem EveryInstance.whenever {f : State → State} (b : Bool) (hs : EveryInstance P s)
    (hf : EveryInstance P (f s)) : EveryInstance P (whenever b f s) := by
  cases b
  · exact hs
  · exact hf

theorem KeptByRegistryOps.irReadAt (kept : KeptByRegistryOps P) (i : Nat) (hs : EveryInstance P s) :
    EveryInstance P (irReadAt i s) := by
  unfold Machine.irReadAt
  split
  next => exact hs
  next I there =>
    intro J hJ
    rcases List.mem_or_eq_of_mem_set hJ with old | rfl
    · exact hs J old
    · exact kept.read I (hs I (List.mem_of_getElem? there))

theorem KeptByRegistryOps.drainStep (kept : KeptByRegistryOps P) (hs : EveryInstance P s) :
    EveryInstance P (drainStep s).1 := by
  rcases drainStep_cases s with ⟨-, done⟩ | ⟨-, -, dispatched⟩
  · rw [done]; exact hs
  · rw [dispatched]; exact dispatchAll_forall (kept.dispatched _) _ hs

theorem KeptByRegistryOps.drain (kept : KeptByRegistryOps P) (hs : EveryInstance P s) :
    EveryInstance P (drain s) := by
  have begun : EveryInstance P (drainBegin s).1 := hs.of_inst_eq (drainBegin_inst s)
  unfold Machine.drain
  split
  · exact drainLoop_invariant (P := EveryInstance P) (fun _ => kept.drainStep) _ _ begun
  · exact begun

theorem KeptByRegistryOps.execRegister (kept : KeptByRegistryOps P) (source : Source) (protocol : Protocol) (mask : U8)
    (rate : ClockRate) (hs : EveryInstance P s) :
    EveryInstance P (Machine.whenever (registerEnabled s && registerLegal source mask)
      (registerInst (newInstance source protocol mask rate)) s) := by
  rcases whenever_cases (registerEnabled s && registerLegal source mask)
    (registerInst (newInstance source protocol mask rate)) s with ⟨enabled, done⟩ | ⟨-, blocked⟩
  · rw [done]
    intro I hI
    rcases List.mem_append.1 hI with old | new
    · exact hs I old
    · rw [List.mem_singleton.1 new]
      exact kept.registered _ _ _ _ (Bool.and_eq_true_iff.1 enabled).2
  · rw [blocked]; exact hs

/-- Of the operations that a word selects, only RESET, REGISTER, IRREAD, DRAIN and DRAIN_STEP write the registry. -/
theorem KeptByRegistryOps.exec {i : Instr} (kept : KeptByRegistryOps P) (hi : i.agent ≠ .sub)
    (h : exec i s = .next t) (hs : EveryInstance P s) : EveryInstance P t := by
  cases agent : i.agent with
  | env => exact hs.of_inst_eq ((exec_env_frame agent h).field State.inst fun _ _ => rfl)
  | irq => exact hs.of_inst_eq ((exec_irq_frame agent h).field State.inst)
  | sub => exact absurd agent hi
  | poll =>
    cases i with
    | reset => cases h; exact nofun
    | register source protocol mask rate => cases h; exact kept.execRegister source protocol mask rate hs
    | irread k => cases h; exact hs.whenever _ (kept.irReadAt _ hs)
    | drain => cases h; exact hs.whenever _ (kept.drain hs)
    | drainStep => cases h; exact hs.whenever _ (kept.drainStep hs)
    | cli | sti | now | drainEnd => cases h; exact hs.of_inst_eq (whenever_inst _ rfl)
    | drainBegin => cases h; exact hs.of_inst_eq (whenever_inst _ (drainBegin_inst s))
    | wgpoll => cases h; exact hs.of_inst_eq (whenever_inst _ (wgPoll_inst s))
    | tx32 | txcred | txkey => cases h; exact hs.of_inst_eq (whenever_inst _ (txRun_inst _ s))
    | _ => cases agent

/-- What the three operations keep of an entry, every step keeps of every entry. -/
theorem KeptByRegistryOps.step (kept : KeptByRegistryOps P) (h : step s = .next t) (hs : EveryInstance P s) :
    EveryInstance P t := by
  replace hs : EveryInstance P { s with stim := s.stim.tail } := hs
  cases step_kind h with
  | nothing h => rwa [h]
  | whole i hi h => exact kept.exec hi h hs
  | first i h => exact hs.of_inst_eq (startOp_inst h)
  | next h => exact hs.of_inst_eq (by rw [h, resume_inst])
  | provider code h => exact hs.of_inst_eq (by rw [h, configure_inst])

end

end Sys2Proof.Machine

/-! R230 to R239: the arms of the infrared decoder, and what they keep. -/

namespace Sys2Proof.Machine

/-! ### The falling-edge decision (R230), state by state -/

theorem irFall_of_restart {delta : Int} {I : Instance} (ts : U32) (h : I.inWord = .idle ∨ 30000 ≤ delta) :
    irFall delta ts I = irFallStart I := if_pos h

theorem irFall_of_sawStart {delta : Int} {I : Instance} (ts : U32) (saw : I.inWord = .sawStart)
    (short : delta < 30000) :
    irFall delta ts I =
      if 4000 ≤ delta ∧ delta ≤ 5000 then irFallSync I
      else if 2000 ≤ delta ∧ delta ≤ 2500 then irFallRepeat I
      else irFallAbort I := by
  have noRestart : ¬ (I.inWord = .idle ∨ Config.irRestartGap ≤ delta) := by
    rintro (idle | restart)
    · cases saw.symm.trans idle
    · exact Int.not_le.2 short restart
  rw [irFall, if_neg noRestart, if_pos saw]
  rfl

/-- In the data, a gap outside both bands aborts the frame; `irFall_of_bit` has the other gaps. -/
theorem irFall_of_badGap {delta : Int} {I : Instance} (ts : U32) (data : I.inWord = .inData)
    (bad : delta < 400 ∨ (800 ≤ delta ∧ delta ≤ 1400) ∨ (1881 ≤ delta ∧ delta < 30000)) :
    irFall delta ts I = irFallAbort I := by
  have noRestart : ¬ (I.inWord = .idle ∨ Config.irRestartGap ≤ delta) := by
    rintro (idle | restart)
    · cases data.symm.trans idle
    · exact absurd restart (by unfold Config.irRestartGap; omega)
  have noSync : ¬ I.inWord = .sawStart := by simp [data]
  have outside : delta < Config.irBitMin ∨ Config.irBitMax < delta
      ∨ (Config.irDeadMin ≤ delta ∧ delta ≤ Config.irDeadMax) := by
    simp only [Config.irBitMin, Config.irBitMax, Config.irDeadMin, Config.irDeadMax]
    omega
  rw [irFall, if_neg noRestart, if_neg noSync, if_pos outside]

/-- A falling edge takes the arm of a start, a sync or a repeat after a start, an abort, or a bit of the data. -/
theorem irFall_cases (delta : Int) (ts : U32) (I : Instance) :
    irFall delta ts I = irFallStart I ∨ (I.inWord = .sawStart ∧ irFall delta ts I = irFallSync I) ∨
    irFall delta ts I = irFallRepeat I ∨ irFall delta ts I = irFallAbort I ∨
    (I.inWord = .inData ∧ irFall delta ts I = irFallBit delta ts I) := by
  by_cases restart : I.inWord = .idle ∨ 30000 ≤ delta
  · exact .inl (irFall_of_restart ts restart)
  obtain ⟨notIdle, short⟩ := not_or.1 restart
  cases word : I.inWord with
  | idle => exact absurd word notIdle
  | sawStart =>
    rw [irFall_of_sawStart ts word (Int.not_le.1 short)]
    split
    · exact .inr (.inl ⟨rfl, rfl⟩)
    · split
      · exact .inr (.inr (.inl rfl))
      · exact .inr (.inr (.inr (.inl rfl)))
  | inData =>
    by_cases valid : (400 ≤ delta ∧ delta ≤ 799) ∨ (1401 ≤ delta ∧ delta ≤ 1880)
    · exact .inr (.inr (.inr (.inr ⟨rfl, irFall_of_bit ts word valid⟩)))
    · exact .inr (.inr (.inr (.inl (irFall_of_badGap ts word (by omega)))))

/-! ### The arms -/

theorem irFallRepeat_of_recent {I : Instance} (h : I.accTime.toNat < 262144) :
    irFallRepeat I = ({ I with inWord := .idle, capturedMessage := 1, capturedBitCount := 1 }, []) := if_pos h

theorem irFallRepeat_of_late {I : Instance} (h : 262144 ≤ I.accTime.toNat) :
    irFallRepeat I = ({ I with inWord := .idle }, []) := if_neg (Nat.not_lt.2 h)

/-- A rising edge has the abort arm on a mark that is too long, or outside the data's bounds (R237). -/
theorem irRise_of_abort {delta : Int} {I : Instance}
    (h : (I.inWord ≠ .idle ∧ 11000 < delta) ∨ (I.inWord = .inData ∧ (delta < 400 ∨ 1880 < delta))) :
    irRise delta I = irFallAbort I := by
  unfold irRise
  split
  · rfl
  next notLong => exact if_pos (h.resolve_left notLong)

theorem irRise_of_not_abort {delta : Int} {I : Instance}
    (h : ¬ ((I.inWord ≠ .idle ∧ 11000 < delta) ∨ (I.inWord = .inData ∧ (delta < 400 ∨ 1880 < delta)))) :
    irRise delta I = (I, []) := by
  obtain ⟨notLong, notBad⟩ := not_or.1 h
  exact (if_neg notLong).trans (if_neg notBad)

/-- The accumulation of R230 in the spec's arithmetic. -/
theorem accumulate_eq_accAfter (acc : U32) (units : Int) : accumulate acc units = accAfter acc units := by
  have duration : (max 0 units).toNat = units.toNat := by omega
  rw [accumulate, accAfter, duration]

/-! ### What the arms keep (R239) -/

/-- Leaving the frame keeps the invariants: the message stays as it is. -/
theorem IrInv.toIdle {I : Instance} (h : IrInv I) : IrInv { I with inWord := .idle } := by
  obtain ⟨-, -, counts, one, zero, bits⟩ := h
  exact ⟨nofun, nofun, counts, one, zero, bits⟩

theorem irInv_irFallStart {I : Instance} (h : IrInv I) : IrInv (irFallStart I).1 := by
  obtain ⟨-, -, counts, one, zero, -⟩ := h
  exact ⟨fun _ => ⟨rfl, rfl⟩, nofun, counts, one, zero, Nat.zero_le 32⟩

/-- After the sync the data begins with nothing received, for the start has cleared it. -/
theorem irInv_irFallSync {I : Instance} (saw : I.inWord = .sawStart) (h : IrInv I) : IrInv (irFallSync I).1 := by
  obtain ⟨start, -, counts, one, zero, bits⟩ := h
  obtain ⟨noBits, empty⟩ := start saw
  refine ⟨nofun, fun _ => ?_, counts, one, zero, bits⟩
  show I.bitsReceived ≤ 31 ∧ I.bitAccumulator.toNat < 2 ^ I.bitsReceived
  rw [noBits, empty]
  decide

theorem irInv_irFallRepeat {I : Instance} (h : IrInv I) : IrInv (irFallRepeat I).1 := by
  rcases Nat.lt_or_ge I.accTime.toNat 262144 with recent | late
  · obtain ⟨-, -, -, -, -, bits⟩ := h
    rw [irFallRepeat_of_recent recent]
    exact ⟨nofun, nofun, .inr (.inl rfl), fun _ => rfl, nofun, bits⟩
  · rw [irFallRepeat_of_late late]
    exact h.toIdle

/-- Publication sets a count that is neither 0 nor 1, so the message is free. -/
theorem irInv_irPublish {I : Instance} (ts : U32) (bits : I.bitsReceived ≤ 32) : IrInv (irPublish ts I).1 :=
  ⟨nofun, nofun, .inr (.inr rfl), nofun, nofun, bits⟩

/-- A bit at place `n` over an accumulator of `n` bits leaves one of `n + 1` bits. -/
theorem shiftIn_toNat_lt {acc : U32} {n : Nat} (b : Bool) (h : acc.toNat < 2 ^ n) :
    (acc ||| ((if b then 1#32 else 0#32) <<< n)).toNat < 2 ^ (n + 1) := by
  have low : acc.toNat < 2 ^ (n + 1) := h.trans (Nat.pow_lt_pow_right (by decide) (Nat.lt_succ_self n))
  have bit : (if b then 1#32 else 0#32).toNat < 2 := by cases b <;> decide
  have place : ((if b then 1#32 else 0#32) <<< n).toNat < 2 ^ (n + 1) := by
    rw [BitVec.toNat_shiftLeft, Nat.shiftLeft_eq, Nat.pow_succ' (n := n)]
    exact (Nat.mod_le _ _).trans_lt (Nat.mul_lt_mul_of_pos_right bit (Nat.two_pow_pos n))
  rw [BitVec.toNat_or]
  exact Nat.or_lt_two_pow low place

theorem irInv_irFallBit {I : Instance} (delta : Int) (ts : U32) (data : I.inWord = .inData) (h : IrInv I) :
    IrInv (irFallBit delta ts I).1 := by
  obtain ⟨-, inData, counts, one, zero, -⟩ := h
  obtain ⟨room, bound⟩ := inData data
  by_cases last : I.bitsReceived = 31
  · rw [irFallBit_of_eq ts last]
    exact irInv_irPublish ts (Nat.succ_le_succ room)
  · rw [irFallBit_of_ne ts last]
    have stillData : (irShiftIn delta I).inWord ≠ .sawStart := by
      show I.inWord ≠ .sawStart
      rw [data]
      decide
    have shifted := shiftIn_toNat_lt (decide (Config.irBitThreshold < delta)) bound
    simp only [decide_eq_true_eq] at shifted
    exact ⟨fun saw => absurd saw stillData, fun _ => ⟨Nat.lt_of_le_of_ne room last, shifted⟩, counts, one, zero,
      Nat.succ_le_succ room⟩

theorem irInv_irFall {I : Instance} (delta : Int) (ts : U32) (h : IrInv I) : IrInv (irFall delta ts I).1 := by
  rcases irFall_cases delta ts I with arm | ⟨saw, arm⟩ | arm | arm | ⟨data, arm⟩ <;> rw [arm]
  · exact irInv_irFallStart h
  · exact irInv_irFallSync saw h
  · exact irInv_irFallRepeat h
  · exact h.toIdle
  · exact irInv_irFallBit delta ts data h

theorem irInv_irRise {I : Instance} (delta : Int) (h : IrInv I) : IrInv (irRise delta I).1 := by
  by_cases aborts : (I.inWord ≠ .idle ∧ 11000 < delta) ∨ (I.inWord = .inData ∧ (delta < 400 ∨ 1880 < delta))
  · rw [irRise_of_abort aborts]; exact h.toIdle
  · rw [irRise_of_not_abort aborts]; exact h

/-- Neither `acc_time` nor what R207 records is in the invariants, so the arm decides. -/
theorem irInv_irEdge {I : Instance} (kind : EdgeKind) (delta units : Int) (ts : U32) (h : IrInv I) :
    IrInv (irEdge kind delta units ts I).1 := by
  have counted : IrInv { I with accTime := accumulate I.accTime units } := h
  cases kind with
  | fall => exact irInv_irFall delta ts counted
  | rise => exact irInv_irRise delta counted
  | tick => exact counted

theorem irInv_dispatchInst (e : EdgeEvent) (I : Instance) (h : IrInv I) : IrInv (dispatchInst e I).1 := by
  unfold dispatchInst
  split
  · exact h
  · rw [handle_eq]
    have recorded : IrInv { I with lastLevel := e.level &&& I.mask, lastTs := e.timestamp } := h
    exact irInv_irEdge _ _ _ _ recorded

/-! ### IRREAD (R240) -/

theorem irReadInst_of_none {I : Instance} (h : I.capturedBitCount = 0) : irReadInst I = (.message 0 0, I) := by
  rw [irReadInst, messagePending, h]
  rfl

theorem irReadInst_of_pending {I : Instance} (h : I.capturedBitCount ≠ 0) :
    irReadInst I = (.message I.capturedMessage I.capturedBitCount,
      { I with capturedMessage := 0, capturedBitCount := 0 }) := if_pos (bne_iff_ne.2 h)

theorem irInv_irReadInst (I : Instance) (h : IrInv I) : IrInv (irReadInst I).2 := by
  by_cases pending : I.capturedBitCount = 0
  · rw [irReadInst_of_none pending]; exact h
  · obtain ⟨start, data, -, -, -, bits⟩ := h
    rw [irReadInst_of_pending pending]
    exact ⟨start, data, .inl rfl, nofun, fun _ => rfl, bits⟩

theorem irInv_newInstance (source : Source) (protocol : Protocol) (mask : U8) (rate : ClockRate) :
    IrInv (newInstance source protocol mask rate) :=
  ⟨nofun, nofun, .inl rfl, nofun, fun _ => rfl, Nat.zero_le 32⟩

/-- Settles O56: the invariants are kept by dispatch, arm by arm, and by IRREAD, and a new entry has them. -/
theorem everyStepKeepsTheInfraredInvariants : Obligations.EveryStepKeepsTheInfraredInvariants := by
  have kept : KeptByRegistryOps IrInv :=
    ⟨irInv_dispatchInst, irInv_irReadInst, fun _ _ _ _ _ => irInv_newInstance _ _ _ _⟩
  exact fun s t hs h => kept.step h hs

/-! ### The operations on `inst[i]` -/

/-- What an operation on `inst[i]` answers where its effect on the entry is known. -/
theorem next_onInst {i : Nat} {f : Instance → Instance × List ErrorOutcome} {s : State} {I K : Instance}
    {os : List ErrorOutcome} (there : s.inst[i]? = some I) (h : f I = (K, os)) :
    (.next (onInst i f s) : Host.Outcome State Fault Refusal) = .next (withInst i K os s) := by
  rw [onInst_of_some f there, h]
  rfl

/-- The last bit is shifted in as the 32nd and published. -/
theorem irFallBit_publishes {delta : Int} {I : Instance} (ts : U32) (last : I.bitsReceived = 31) :
    irFallBit delta ts I = irPublish ts { irShiftIn delta I with bitsReceived := 32 } := by
  have full : irShiftIn delta I = { irShiftIn delta I with bitsReceived := 32 } := by rw [irShiftIn, last]
  rw [irFallBit_of_eq ts last, ← full]

/-- Settles O34: the effect of each arm on its entry. -/
theorem infraredFallingEdgeArms : Obligations.InfraredFallingEdgeArms := by
  intro i delta ts s I there acc
  exact ⟨next_onInst there rfl, next_onInst there rfl, next_onInst there rfl,
    fun recent => next_onInst there (irFallRepeat_of_recent recent),
    fun late => next_onInst there (irFallRepeat_of_late late),
    fun more => next_onInst there (irFallBit_of_ne ts more),
    fun last => next_onInst there (irFallBit_publishes ts last), next_onInst there rfl⟩

/-- Settles O35: by the two cases of the rising edge. -/
theorem infraredRiseOnlyAborts : Obligations.InfraredRiseOnlyAborts := by
  refine fun i delta s I there => ⟨fun aborts => next_onInst there (irRise_of_abort aborts), fun keeps => ?_⟩
  calc exec (.irRise i delta) s = .next (withInst i I [] s) := next_onInst there (irRise_of_not_abort keeps)
    _ = .next s := by rw [withInst_self there]

/-- Between the two bands of valid gaps lies the threshold of R235. -/
theorem irShiftIn_of_valid {delta : Int} (I : Instance)
    (valid : (400 ≤ delta ∧ delta ≤ 799) ∨ (1401 ≤ delta ∧ delta ≤ 1880)) :
    irShiftIn delta I = { I with
      bitsReceived := I.bitsReceived + 1
      bitAccumulator := I.bitAccumulator ||| ((if 1401 ≤ delta then 1#32 else 0#32) <<< I.bitsReceived) } := by
  have threshold : (Config.irBitThreshold < delta) ↔ 1401 ≤ delta := by
    unfold Config.irBitThreshold
    omega
  simp only [irShiftIn, threshold]

/-- Settles O33: each row is an arm of the edge, on the entry that has accumulated the duration. -/
theorem infraredTransitionTable : Obligations.InfraredTransitionTable := by
  intro i delta units ts s J there I fallTo riseTo shifted
  have counted : { J with accTime := accumulate J.accTime units } = I := by rw [accumulate_eq_accAfter]
  have fall {K : Instance} {os : List ErrorOutcome} (h : irFall delta ts I = (K, os)) : fallTo K os :=
    next_onInst there ((congrArg (irFall delta ts) counted).trans h)
  have rise {K : Instance} {os : List ErrorOutcome} (h : irRise delta I = (K, os)) : riseTo K os :=
    next_onInst there ((congrArg (irRise delta) counted).trans h)
  refine ⟨fun restart => fall (irFall_of_restart ts restart), fun saw lo hi => fall ?sync,
    fun saw lo hi recent => fall ?recent, fun saw lo hi late => fall ?late,
    fun saw short noSync noRepeat => fall ?badLead, fun data valid more => fall ?bit, fun data valid last => fall ?last,
    fun data bad => fall (irFall_of_badGap ts data bad), fun idle => rise (irRise_of_not_abort ?idle),
    fun busy long => rise (irRise_of_abort (.inl ⟨busy, long⟩)), fun saw short => rise (irRise_of_not_abort ?saw),
    fun data bad => rise (irRise_of_abort (.inr ⟨data, bad⟩)), fun data lo hi => rise (irRise_of_not_abort ?mark)⟩
  case sync =>
    rw [irFall_of_sawStart ts saw (by omega), if_pos ⟨lo, hi⟩]
    rfl
  case recent =>
    rw [irFall_of_sawStart ts saw (by omega), if_neg (by omega), if_pos ⟨lo, hi⟩]
    exact irFallRepeat_of_recent recent
  case late =>
    rw [irFall_of_sawStart ts saw (by omega), if_neg (by omega), if_pos ⟨lo, hi⟩]
    exact irFallRepeat_of_late late
  case badLead =>
    rw [irFall_of_sawStart ts saw short, if_neg noSync, if_neg noRepeat]
    rfl
  case bit => rw [irFall_of_bit ts data valid, irFallBit_of_ne ts more, irShiftIn_of_valid I valid]
  case last =>
    rw [irFall_of_bit ts data valid, irFallBit_of_eq ts last, irShiftIn_of_valid I valid]
    rfl
  case idle => simp [idle]
  case saw => simp [saw, short]
  case mark => simp [data, lo, hi]; omega

/-! ### IRREAD as an operation -/

theorem exec_irread {k : U8} {s : State} {I : Instance} (there : s.inst[k.toNat]? = some I)
    (between : BetweenOperations s) :
    exec (.irread k) s =
      .next { s with result := (irReadInst I).1, inst := s.inst.set k.toNat (irReadInst I).2 } := by
  refine congrArg Host.Outcome.next ((whenever_pollFree _ between).trans ?_)
  rw [irReadAt, there]
  rfl

/-- With no message pending the entry is left as it is. -/
theorem exec_irread_of_none {k : U8} {s : State} {I : Instance} (there : s.inst[k.toNat]? = some I)
    (between : BetweenOperations s) (h : I.capturedBitCount = 0) :
    exec (.irread k) s = .next { s with result := .message 0 0 } := by
  obtain ⟨bound, same⟩ := List.getElem?_eq_some_iff.1 there
  rw [exec_irread there between, irReadInst_of_none h, ← same, List.set_getElem_self]

/-- Settles O37: by whether a message is pending; after one is read none is. -/
theorem irreadReturnsTheMessageOnce : Obligations.IrreadReturnsTheMessageOnce := by
  refine ⟨fun k s inside => congrArg Host.Outcome.next (whenever_not_pollFree _ inside),
    fun k s I there between => ⟨exec_irread_of_none there between, fun pending => ?_, ?_⟩⟩
  · rw [exec_irread there between, irReadInst_of_pending pending]
  · obtain ⟨bound, -⟩ := List.getElem?_eq_some_iff.1 there
    have cleared : (irReadInst I).2.capturedBitCount = 0 := by
      by_cases pending : I.capturedBitCount = 0
      · rw [irReadInst_of_none pending]; exact pending
      · rw [irReadInst_of_pending pending]
    have again := exec_irread_of_none (k := k) (I := (irReadInst I).2)
      (s := { s with result := (irReadInst I).1, inst := s.inst.set k.toNat (irReadInst I).2 })
      (List.getElem?_set_self bound) between cleared
    refine ⟨_, (runOps_cons_of_exec _ (exec_irread there between)).trans (runOps_cons_of_exec [] again), rfl⟩

end Sys2Proof.Machine

/-! R275: the raw value of a received message, and what TX32 sends read back by it. -/

namespace Sys2Proof.Machine

/-! ### WG_RAW -/

theorem wgRaw_concat (msg : List Bool) (b : Bool) : wgRaw (msg ++ [b]) = Nat.bit b (wgRaw msg) := by
  rw [wgRaw, List.foldl_concat, Nat.bit_val, wgRaw]

theorem exec_wgRaw (msg : List Bool) (s : State) :
    exec (.wgRaw msg) s = .next { s with result := .raw (wgRaw msg) } := rfl

/-- Bit `k` is the bit received `k` before the last; above the first bit received there is none. -/
theorem testBit_wgRaw (msg : List Bool) (k : Nat) : (wgRaw msg).testBit k = msg.reverse.getD k false := by
  induction msg using List.reverseRecOn generalizing k with
  | nil => simp [wgRaw]
  | append_singleton msg b ih =>
    rw [wgRaw_concat, List.reverse_concat]
    cases k with
    | zero => rw [Nat.testBit_bit_zero, List.getD_cons_zero]
    | succ k => rw [Nat.testBit_bit_succ, List.getD_cons_succ, ih]

theorem testBit_wgRaw_of_lt {msg : List Bool} {j : Nat} (h : j < msg.length) :
    (wgRaw msg).testBit (msg.length - 1 - j) = msg[j] := by
  have place : msg.length - 1 - j < msg.reverse.length := by rw [List.length_reverse]; omega
  rw [testBit_wgRaw, List.getD_eq_getElem _ _ place, List.getElem_reverse]
  congr 1
  omega

theorem wgRaw_lt (msg : List Bool) : wgRaw msg < 2 ^ msg.length := by
  refine Nat.lt_pow_two_of_testBit _ fun k above => ?_
  rw [testBit_wgRaw, List.getD_eq_default _ _ (by rwa [List.length_reverse])]

/-- The bound and the bits of R275 name one value. -/
theorem wgRaw_eq_of_testBit {msg : List Bool} {v : Nat} (bound : v < 2 ^ msg.length)
    (bits : ∀ j (h : j < msg.length), v.testBit (msg.length - 1 - j) = msg[j]) : wgRaw msg = v := by
  refine Nat.eq_of_testBit_eq fun k => ?_
  by_cases h : k < msg.length
  · obtain ⟨j, hj, rfl⟩ : ∃ j, j < msg.length ∧ k = msg.length - 1 - j := ⟨msg.length - 1 - k, by omega, by omega⟩
    rw [testBit_wgRaw_of_lt hj, bits j hj]
  · have high : 2 ^ msg.length ≤ 2 ^ k := Nat.pow_le_pow_right (by decide) (Nat.le_of_not_lt h)
    rw [Nat.testBit_lt_two_pow ((wgRaw_lt msg).trans_le high), Nat.testBit_lt_two_pow (bound.trans_le high)]

/-- Settles O38: by the bound and the bits of the value, each by induction on the message from its end. -/
theorem wgRawPutsTheFirstBitHighest : Obligations.WgRawPutsTheFirstBitHighest :=
  fun msg s => ⟨wgRaw msg, exec_wgRaw msg s, wgRaw_lt msg, fun _ h => testBit_wgRaw_of_lt h⟩

/-! ### TX32 read back -/

/-- A run of `Emit` and `Wait` micro-steps appends its items to the trace. -/
theorem txRun_items_trace (items : List TraceItem) (s : State) :
    (txRun (items.map .item) s).trace = s.trace ++ items := by
  induction items generalizing s with
  | nil => exact (List.append_nil _).symm
  | cons item items ih =>
    have first : (txStep (.item item) s).trace = s.trace ++ [item] := by cases item <;> rfl
    rw [List.map_cons, txRun_cons, ih, first, List.append_assoc, List.singleton_append]

/-- The two writes of `int_enable` around TX32's pulses leave the trace. -/
theorem txRun_tx32Steps_trace {v : U32} (h : v ≠ 0) (s : State) :
    (txRun (tx32Steps v) s).trace = s.trace ++ tx32Items v := by
  have masked : (txRun (tx32Steps v) s).trace = (txRun ((tx32Items v).map .item) (setIntEnable false s)).trace := by
    rw [tx32Steps, if_neg h, List.cons_append, txRun_cons, txRun_append]
    rfl
  rw [masked, txRun_items_trace, setIntEnable_trace]

theorem pulsedLines_append (a b : List TraceItem) : pulsedLines (a ++ b) = pulsedLines a ++ pulsedLines b :=
  List.filterMap_append

theorem pulsedLines_pulseItems (b : Bool) : pulsedLines (pulseItems b) = [b] := by cases b <;> rfl

theorem pulsedLines_flatMap_pulseItems (f : Nat → Bool) (l : List Nat) :
    pulsedLines (l.flatMap fun j => pulseItems (f j)) = l.map f := by
  induction l with
  | nil => rfl
  | cons j l ih => rw [List.flatMap_cons, pulsedLines_append, pulsedLines_pulseItems, ih, List.map_cons,
      List.singleton_append]

/-- TX32 pulses the lines of the value's bits, bit 31 first (R305). -/
theorem pulsedLines_tx32Items (v : U32) :
    pulsedLines (tx32Items v) = (List.range 32).map fun j => v.getLsbD (31 - j) := by
  rw [tx32Items_eq_pulses, pulsedLines_flatMap_pulseItems fun j => v.getLsbD (31 - j)]

/-- The bits of a word, most significant first, have the word as their raw value. -/
theorem wgRaw_bits (v : U32) : wgRaw ((List.range 32).map fun j => v.getLsbD (31 - j)) = v.toNat := by
  refine wgRaw_eq_of_testBit ?bound fun j h => ?bit
  case bound => rw [List.length_map, List.length_range]; exact v.isLt
  case bit => rw [List.length_map, List.length_range, List.getElem_map, List.getElem_range]; rfl

/-- Settles O51: the trace gains the 32 pulses, these pulse the lines of the value's bits, and WG_RAW undoes that. -/
theorem tx32ReadsBackThroughWgRaw : Obligations.Tx32ReadsBackThroughWgRaw := by
  intro v s between nonzero
  refine ⟨txRun (tx32Steps v) s, tx32Items v, congrArg Host.Outcome.next (whenever_pollFree _ between),
    txRun_tx32Steps_trace nonzero s, ?_⟩
  rw [exec_wgRaw, pulsedLines_tx32Items, wgRaw_bits]

end Sys2Proof.Machine

/-! R276: the result of a message by its length. -/

namespace Sys2Proof.Machine

/-- A mask of the low bits and a shift by one are a remainder and a half. -/
theorem mask_shift_eq (v k : Nat) : (v &&& (2 ^ k - 1)) >>> 1 = v % 2 ^ k / 2 := by
  rw [Nat.and_two_pow_sub_one_eq_mod, Nat.shiftRight_eq_div_pow]

theorem wgCanon_four (v : Nat) : wgCanon 4 v = .key (BitVec.ofNat 4 v) := rfl

theorem wgCanon_26 (v : Nat) : wgCanon 26 v = wgReduce (v % 2 ^ 25 / 2) := congrArg wgReduce (mask_shift_eq v 25)

theorem wgCanon_34 (v : Nat) : wgCanon 34 v = wgReduce (v % 2 ^ 33 / 2) := congrArg wgReduce (mask_shift_eq v 33)

theorem wgCanon_35 (v : Nat) : wgCanon 35 v = wgReduce (v % 2 ^ 21 / 2) := congrArg wgReduce (mask_shift_eq v 21)

theorem wgCanon_36 (v : Nat) : wgCanon 36 v = wgReduce (v % 2 ^ 33 / 2) := congrArg wgReduce (mask_shift_eq v 33)

/-- A length that is no key's and no credential's is noise. -/
theorem wgCanon_of_ne {n : Nat} (v : Nat) (h4 : n ≠ 4) (h26 : n ≠ 26) (h34 : n ≠ 34) (h35 : n ≠ 35) (h36 : n ≠ 36) :
    wgCanon n v = .noise n := by
  have unmasked : wgMasked n v = none := by
    unfold wgMasked
    split
    · exact absurd rfl h26
    · exact absurd rfl h34
    · exact absurd rfl h35
    · exact absurd rfl h36
    · rfl
  rw [wgCanon, if_neg h4, unmasked]

theorem wgReduce_of_zero {x : Nat} (h : x % 100000000 = 0) : wgReduce x = .zero := if_pos h

theorem wgReduce_of_ne_zero {x : Nat} (h : x % 100000000 ≠ 0) :
    wgReduce x = .cred (BitVec.ofNat 32 (x % 100000000)) := if_neg h

theorem exec_wgCanon {n v : Nat} {res : WgResult} (h : wgCanon n v = res) (s : State) :
    exec (.wgCanon n v) s =
      .next { s with result := .wiegand res, outcomes := s.outcomes ++ wgOutcomes res } := by
  subst h
  rfl

/-- A recognised credential length gives the reduced value, or Zero with its outcome. -/
theorem exec_wgCanon_of_reduce {n v x : Nat} (h : wgCanon n v = wgReduce x) (s : State) :
    (x % 100000000 = 0 → exec (.wgCanon n v) s =
      .next { s with result := .wiegand .zero, outcomes := s.outcomes ++ [.zeroCredential] }) ∧
    (x % 100000000 ≠ 0 → exec (.wgCanon n v) s =
      .next { s with result := .wiegand (.cred (BitVec.ofNat 32 (x % 100000000))), outcomes := s.outcomes ++ [] }) :=
  ⟨fun zero => exec_wgCanon (h.trans (wgReduce_of_zero zero)) s,
    fun nonzero => exec_wgCanon (h.trans (wgReduce_of_ne_zero nonzero)) s⟩

/-- Settles O39: by the length of the message. -/
theorem wgCanonByLength : Obligations.WgCanonByLength := by
  intro n v s _ returns credential
  refine ⟨?key, ?bits26, ?bits34, ?bits35, ?bits36, ?noise⟩
  case key => rintro rfl; exact exec_wgCanon (wgCanon_four v) s
  case bits26 => rintro rfl; exact exec_wgCanon_of_reduce (wgCanon_26 v) s
  case bits34 => rintro rfl; exact exec_wgCanon_of_reduce (wgCanon_34 v) s
  case bits35 => rintro rfl; exact exec_wgCanon_of_reduce (wgCanon_35 v) s
  case bits36 => rintro rfl; exact exec_wgCanon_of_reduce (wgCanon_36 v) s
  case noise => intro h4 h26 h34 h35 h36; exact exec_wgCanon (wgCanon_of_ne v h4 h26 h34 h35 h36) s

end Sys2Proof.Machine

/-! R277 and R278: the keys, and what a result is forwarded to. -/

namespace Sys2Proof.Machine

/-! ### WG_KEYMAP -/

theorem wgKeymap_of_digit {code : U4} {d : Fin 10} (h : code.toNat = d.val) : wgKeymap code = some (.digit d) := by
  have below : code.toNat < 10 := h ▸ d.isLt
  have same : (⟨code.toNat, below⟩ : Fin 10) = d := Fin.ext h
  rw [wgKeymap, dif_pos below, same]

theorem wgKeymap_ten : wgKeymap 10 = some .star := rfl

theorem wgKeymap_eleven : wgKeymap 11 = some .hash := rfl

theorem wgKeymap_of_twelve_le {code : U4} (h : 12 ≤ code.toNat) : wgKeymap code = none := by
  have noStar : code ≠ 10 := by rintro rfl; exact absurd h (by decide)
  have noHash : code ≠ 11 := by rintro rfl; exact absurd h (by decide)
  rw [wgKeymap, dif_neg (by omega), if_neg noStar, if_neg noHash]

/-- Settles O40: by the code. -/
theorem wgKeymapNamesTheKey : Obligations.WgKeymapNamesTheKey := by
  refine fun code s => ⟨wgKeymap code, rfl, fun d => wgKeymap_of_digit, ?_, ?_, wgKeymap_of_twelve_le⟩
  · rintro rfl; exact wgKeymap_ten
  · rintro rfl; exact wgKeymap_eleven

/-! ### WG_FORWARD -/

theorem exec_tx32 (v : U32) {s : State} (h : BetweenOperations s) :
    exec (.tx32 v) s = .next (txRun (tx32Steps v) s) := congrArg Host.Outcome.next (whenever_pollFree _ h)

theorem exec_txcred (v : U32) {s : State} (h : BetweenOperations s) :
    exec (.txcred v) s = .next (txRun (txCredSteps s.cfg v) s) := congrArg Host.Outcome.next (whenever_pollFree _ h)

theorem exec_txkey (c : Key) {s : State} (h : BetweenOperations s) :
    exec (.txkey c) s = .next (txRun (txKeySteps s.cfg c) s) := congrArg Host.Outcome.next (whenever_pollFree _ h)

theorem exec_wgForward (res : WgResult) (s : State) :
    exec (.wgForward res) s = .next (txRun (forwardSteps s.cfg s.xlateOption res) s) := rfl

/-- Between operations WG_FORWARD does what the transmission that `forwardedTo` names does (R278). -/
theorem txRun_forwardSteps (x : XlateOption) (res : WgResult) {s : State} (h : BetweenOperations s) :
    .next (txRun (forwardSteps s.cfg x res) s) = ((forwardedTo x res).map fun i => exec i s).getD (.next s) := by
  match x, res with
  | .none, _ => rfl
  | .fmt32, .cred r => exact (exec_tx32 r h).symm
  | .fmt32, .nothing | .fmt32, .noise _ | .fmt32, .zero | .fmt32, .key _ => rfl
  | .clockData, .cred r => exact (exec_txcred r h).symm
  | .clockData, .nothing | .clockData, .noise _ | .clockData, .zero => rfl
  | .clockData, .key code =>
    rw [forwardSteps_key, forwardedTo_key]
    cases wgKeymap code with
    | none => rfl
    | some key => exact (exec_txkey key h).symm

/-- A result that is forwarded to no transmission changes nothing. -/
theorem exec_wgForward_of_none {s : State} {res : WgResult} (between : BetweenOperations s)
    (h : forwardedTo s.xlateOption res = none) : exec (.wgForward res) s = .next s := by
  rw [exec_wgForward, txRun_forwardSteps _ _ between, h]
  rfl

/-- A result that is forwarded to a transmission does what that does. -/
theorem exec_wgForward_of_some {s : State} {res : WgResult} {i : Instr} (between : BetweenOperations s)
    (h : forwardedTo s.xlateOption res = some i) : ∃ t, exec (.wgForward res) s = .next t ∧ exec i s = .next t := by
  obtain ⟨t, sent⟩ := exec_next i s
  refine ⟨t, ?_, sent⟩
  rw [exec_wgForward, txRun_forwardSteps _ _ between, h]
  exact sent

theorem forwardedTo_key_of_keymap {code : U4} {k : Option Key} (h : wgKeymap code = k) :
    forwardedTo .clockData (.key code) = k.map .txkey := by
  rw [forwardedTo_key, h]

/-- Only credentials and keys are ever forwarded (R278). -/
theorem forwardedTo_eq_none (x : XlateOption) {res : WgResult} (cred : ∀ r, res ≠ .cred r)
    (key : ∀ code, res ≠ .key code) : forwardedTo x res = none := by
  cases res with
  | cred r => exact absurd rfl (cred r)
  | key code => exact absurd rfl (key code)
  | nothing | noise | zero => cases x <;> rfl

/-- Settles O41: by the transmission that the option and the result name. -/
theorem wgForwardByTranslationOption : Obligations.WgForwardByTranslationOption := by
  intro s between
  refine ⟨fun res option => ?_, fun r option => ?_, fun code option => ?_, fun r option => ?_,
    fun code d option digit => ?_, fun option => ⟨?_, ?_, fun code noKey => ?_⟩, fun n => ?_, ?_, ?_⟩
  · exact exec_wgForward_of_none between (by rw [option]; rfl)
  · exact exec_wgForward_of_some between (by rw [option]; rfl)
  · exact exec_wgForward_of_none between (by rw [option]; rfl)
  · exact exec_wgForward_of_some between (by rw [option]; rfl)
  · exact exec_wgForward_of_some between (option ▸ forwardedTo_key_of_keymap (wgKeymap_of_digit digit))
  · exact exec_wgForward_of_some between (option ▸ forwardedTo_key_of_keymap wgKeymap_ten)
  · exact exec_wgForward_of_some between (option ▸ forwardedTo_key_of_keymap wgKeymap_eleven)
  · exact exec_wgForward_of_none between (option ▸ forwardedTo_key_of_keymap (wgKeymap_of_twelve_le noKey))
  all_goals exact exec_wgForward_of_none between (forwardedTo_eq_none _ nofun nofun)

end Sys2Proof.Machine

/-! R271 to R273 and R279: the Wiegand services and WGPOLL. -/

namespace Sys2Proof.Machine

/-! ### The services -/

theorem irqExit_irqEnter_wg0 {s : State} (h : s.intEnable = true) :
    irqExit (irqEnter .wg0 s) = { s with pendWg0 := false } := by
  show { s with intEnable := true, pendWg0 := false } = { s with pendWg0 := false }
  rw [← h]

theorem irqExit_irqEnter_wg1 {s : State} (h : s.intEnable = true) :
    irqExit (irqEnter .wg1 s) = { s with pendWg1 := false } := by
  show { s with intEnable := true, pendWg1 := false } = { s with pendWg1 := false }
  rw [← h]

/-- The body of a Wiegand service, with the timestamp in arithmetic. -/
theorem wgBody_eq (bit : Bool) (s : State) :
    wgBody bit s = { s with
      wgBits := if s.wgBits.length < 70 then s.wgBits ++ [bit] else s.wgBits,
      wgLastTs := timestampAt s s.hardwareCounter } := by
  rw [← stamp_eq_timestampAt]
  rfl

/-- `int_enable` plays no part in the body, so entry and exit come before it. -/
theorem service_wgBody {src : IrqSource} {s : State} (bit : Bool) (ready : irqEnabled src s = true) :
    service src (wgBody bit) s = wgBody bit (irqExit (irqEnter src s)) := service_of_enabled _ ready

/-- Settles O20: entry and exit around the body clear the pending bit alone. -/
theorem isrWgAppendsItsBitAndRestartsTheTimeout : Obligations.IsrWgAppendsItsBitAndRestartsTheTimeout := by
  refine fun s enabled noCapt noPca => ⟨fun pending => ?_, fun noWg0 pending => ?_⟩
  · have ready : irqEnabled .wg0 s = true := by
      simp [irqEnabled, irqPending, irqAbove, enabled, pending, noCapt, noPca]
    refine congrArg Host.Outcome.next ((service_wgBody false ready).trans ?_)
    rw [irqExit_irqEnter_wg0 enabled, wgBody_eq]
    rfl
  · have ready : irqEnabled .wg1 s = true := by
      simp [irqEnabled, irqPending, irqAbove, enabled, pending, noCapt, noPca, noWg0]
    refine congrArg Host.Outcome.next ((service_wgBody true ready).trans ?_)
    rw [irqExit_irqEnter_wg1 enabled, wgBody_eq]
    rfl

/-! ### WGPOLL -/

theorem exec_wgpoll {s : State} (h : BetweenOperations s) : exec .wgpoll s = .next (wgPoll s) :=
  congrArg Host.Outcome.next (whenever_pollFree _ h)

/-- With no complete message WGPOLL returns Nothing. -/
theorem wgPoll_of_not_complete {s : State} (h : wgComplete s = false) :
    wgPoll s = { s with intEnable := true, result := .wiegand .nothing } := by
  unfold wgPoll wgTake
  rw [if_neg (by rw [h]; decide)]
  rfl

/-- What the take of R273 leaves. -/
def tookMessage (s : State) : State :=
  { s with wgBits := [], wgDiagLen := BitVec.ofNat 8 s.wgBits.length, wgDiagTs := s.wgLastTs, intEnable := true }

theorem wgPoll_of_complete {s : State} (h : wgComplete s = true) :
    wgPoll s = txRun (forwardSteps s.cfg s.xlateOption (wgDecoded s.wgBits)) (wgConclude s.wgBits (tookMessage s)) := by
  unfold wgPoll wgTake
  rw [if_pos h]
  rfl

/-- What a complete message leaves of WGPOLL, beside what it sends: the buffer empty, the diagnosis and the result. -/
theorem wgPoll_fields_of_complete {s : State} (h : wgComplete s = true) :
    (wgPoll s).wgBits = [] ∧ (wgPoll s).wgDiagLen = BitVec.ofNat 8 s.wgBits.length ∧
    (wgPoll s).wgDiagTs = s.wgLastTs ∧ (wgPoll s).result = .wiegand (wgDecoded s.wgBits) := by
  rw [wgPoll_of_complete h, txRun_eq]
  exact ⟨rfl, rfl, rfl, rfl⟩

/-- Settles O42: by whether a message is complete; the parts of a poll are the sub-operations. -/
theorem wgpollTakesAMessageAfterTheTimeout : Obligations.WgpollTakesAMessageAfterTheTimeout := by
  intro s elapsed taken
  refine ⟨fun between early => ?nothing, fun between nonempty late => ?message,
    fun inside => congrArg Host.Outcome.next (whenever_not_pollFree _ inside)⟩
  case nothing =>
    have incomplete : wgComplete s = false := by
      rw [← Bool.not_eq_true, wgComplete_iff]
      rintro ⟨nonempty, late⟩
      exact early.elim nonempty (Nat.not_lt.2 late)
    rw [exec_wgpoll between, wgPoll_of_not_complete incomplete]
  case message =>
    have complete : wgComplete s = true := (wgComplete_iff s).2 ⟨nonempty, late⟩
    obtain ⟨-, -, -, result⟩ := wgPoll_fields_of_complete complete
    refine ⟨wgRaw s.wgBits, wgDecoded s.wgBits, wgOutcomes (wgDecoded s.wgBits), wgPoll s, exec_wgRaw _ _,
      exec_wgCanon rfl _, ?_, result, exec_wgpoll between⟩
    rw [wgPoll_of_complete complete]
    rfl

theorem wgDecoded_of_length_26 {msg : List Bool} (h : msg.length = 26) :
    wgDecoded msg = wgReduce (wgRaw msg % 2 ^ 25 / 2) := by
  rw [wgDecoded, h, wgCanon_26]

/-- Settles O43: the bits name WG_RAW's value, and WGPOLL returns what WG_CANON makes of it. -/
theorem twentySixBitsGiveTheCredential : Obligations.TwentySixBitsGiveTheCredential := by
  intro s v between length bits bound late
  have nonempty : s.wgBits ≠ [] := List.ne_nil_of_length_pos (by omega)
  have raw : wgRaw s.wgBits = v :=
    wgRaw_eq_of_testBit (by rwa [length]) fun j h => by rw [← bits j h, length]
  obtain ⟨empty, diagLen, diagTs, result⟩ := wgPoll_fields_of_complete ((wgComplete_iff s).2 ⟨nonempty, late⟩)
  refine ⟨wgPoll s, exec_wgpoll between, empty, by rw [diagLen, length]; rfl, diagTs, ?_⟩
  rw [result, wgDecoded_of_length_26 length, raw]
  rfl

end Sys2Proof.Machine

/-! R301, R302, R306 and R310: what the items of one pulse, of one bit cell, and of runs of these do. -/

namespace Sys2Proof.Machine

/-! ### Holds (R302) -/

theorem tickNs_eq_periodNs (p : Params) : tickNs p = periodNs p.tick := by
  unfold tickNs
  cases p.tick <;> rfl

theorem periodNs_pos (k : TickPeriod) : 0 < periodNs k := by cases k <;> decide

/-- A hold that is a whole number of ticks lasts that many. -/
theorem waitTicks_of_exact {p : Params} {us n : Nat} (whole : us * 1000 = n * periodNs p.tick) :
    waitTicks p us = n := by
  rw [waitTicks, tickNs_eq_periodNs, whole, if_pos (Nat.mul_mod_left _ _), Nat.mul_div_cancel _ (periodNs_pos _)]

/-- The two holds of the wire formats are exact at every period. -/
theorem holds_exact (k : TickPeriod) : 40 * 1000 = ticks40 k * periodNs k ∧ 200 * 1000 = ticks200 k * periodNs k := by
  cases k <;> decide

theorem waitTicks_40 (p : Params) : waitTicks p 40 = ticks40 p.tick := waitTicks_of_exact (holds_exact p.tick).1

theorem waitTicks_200 (p : Params) : waitTicks p 200 = ticks200 p.tick := waitTicks_of_exact (holds_exact p.tick).2

theorem exec_wait (us : Nat) (s : State) :
    exec (.wait us) s = .next (oneTick^[waitTicks s.cfg us] { s with trace := s.trace ++ [.wait us] }) :=
  congrArg Host.Outcome.next (adv_eq_oneTick_iterate _ _)

/-- Settles O44: each line by what Emit writes, the holds by their exact number of ticks. -/
theorem emitDrivesItsLineAndWaitHolds : Obligations.EmitDrivesItsLineAndWaitHolds := by
  refine ⟨fun lvl s => ⟨rfl, rfl, rfl, rfl⟩, fun us n s whole => ?_, holds_exact, fun us s => ⟨_, exec_wait us s⟩⟩
  rw [exec_wait, waitTicks_of_exact whole]

/-! ### What a run of items leaves -/

/-- `s` after `n` ticks in which `items` were sent, with the lines at the given levels at the end. -/
def sent (n : Nat) (items : List TraceItem) (tx0 tx1 clk data : Bool) (s : State) : State :=
  { adv n s with trace := s.trace ++ items, tx0 := tx0, tx1 := tx1, txClk := clk, txData := data }

theorem sent_nothing (s : State) : sent 0 [] s.tx0 s.tx1 s.txClk s.txData s = s := by
  rw [sent, adv_zero, List.append_nil]

/-- Of two runs the ticks and the items add up, and the second decides the levels. -/
theorem sent_sent (m n : Nat) (js is : List TraceItem) (a b c d a' b' c' d' : Bool) (s : State) :
    sent m js a b c d (sent n is a' b' c' d' s) = sent (m + n) (is ++ js) a b c d s := by
  unfold sent
  rw [Nat.add_comm, ← adv_adv, ← List.append_assoc]
  rfl

/-- What is sent on TX0 and TX1, with its ticks one by one (R150). -/
theorem sent_pulses_eq (n : Nat) (items : List TraceItem) (tx0 tx1 : Bool) (s : State) :
    sent n items tx0 tx1 s.txClk s.txData s =
      { oneTick^[n] s with trace := s.trace ++ items, tx0 := tx0, tx1 := tx1 } := by
  rw [sent, ← adv_eq_oneTick_iterate]
  rfl

/-- What is sent on the clock and the data line, with its ticks one by one (R150). -/
theorem sent_cells_eq (n : Nat) (items : List TraceItem) (clk data : Bool) (s : State) :
    sent n items s.tx0 s.tx1 clk data s =
      { oneTick^[n] s with trace := s.trace ++ items, txClk := clk, txData := data } := by
  rw [sent, ← adv_eq_oneTick_iterate]
  rfl

/-! ### Pulses of the 32-bit format (R306) -/

/-- One pulse: its line ends high, the other line is as it was. -/
theorem txRun_pulse (b : Bool) (s : State) :
    txRun ((pulseItems b).map .item) s = sent (ticks40 s.cfg.tick + ticks200 s.cfg.tick) (pulseItems b)
      (s.tx0 || !b) (s.tx1 || b) s.txClk s.txData s := by
  rw [sent, ← adv_adv, ← waitTicks_40, ← waitTicks_200]
  cases b <;> simp [pulseItems, txRun, txStep, emit, wait, setLine, adv]

/-- Pulses on two idle lines leave them idle. -/
theorem txRun_pulses (bits : List Bool) {s : State} (idle0 : s.tx0 = true) (idle1 : s.tx1 = true) :
    txRun ((bits.flatMap pulseItems).map .item) s =
      sent (bits.length * (ticks40 s.cfg.tick + ticks200 s.cfg.tick)) (bits.flatMap pulseItems)
        true true s.txClk s.txData s := by
  induction bits generalizing s with
  | nil => simpa [txRun_nil, idle0, idle1] using (sent_nothing s).symm
  | cons b bits ih =>
    rw [List.flatMap_cons, List.map_append, txRun_append, txRun_pulse, idle0, idle1, Bool.true_or, Bool.true_or,
      ih rfl rfl, sent_sent, List.length_cons, Nat.add_one_mul]
    rfl

/-! ### Cells of the clock/data format (R310) -/

/-- One cell: the clock ends high, the data line keeps the cell's level. -/
theorem txRun_cell (b : Bool) (s : State) :
    txRun ((cellItems b).map .item) s =
      sent (2 * ticks200 s.cfg.tick) (cellItems b) s.tx0 s.tx1 true (!b) s := by
  rw [sent, Nat.two_mul, ← adv_adv, ← waitTicks_200]
  simp [cellItems, txRun, txStep, emit, wait, setLine, adv]

/-- Of a run of cells the last decides the level of the data line. -/
theorem txRun_cells (cells : List Bool) (last : Bool) (s : State) :
    txRun (((cells ++ [last]).flatMap cellItems).map .item) s =
      sent ((cells ++ [last]).length * (2 * ticks200 s.cfg.tick)) ((cells ++ [last]).flatMap cellItems)
        s.tx0 s.tx1 true (!last) s := by
  induction cells generalizing s with
  | nil => simpa using txRun_cell last s
  | cons b cells ih =>
    rw [List.cons_append, List.flatMap_cons, List.map_append, txRun_append, txRun_cell, ih, sent_sent,
      List.length_cons, Nat.add_one_mul (cells ++ [last]).length]
    rfl

/-- Settles O45: one pulse and one cell, their holds in ticks. -/
theorem oneBitIsOnePulseOrOneCell : Obligations.OneBitIsOnePulseOrOneCell := by
  refine fun b s => ⟨?pulse, ?cell⟩
  case pulse =>
    calc exec (.tx32Bit b) s
        = .next (txRun ((pulseItems b).map .item) s) := by rw [← tx32BitItems_eq_pulseItems]; rfl
      _ = _ := by rw [txRun_pulse, sent_pulses_eq]
  case cell =>
    calc exec (.cdBit b) s
        = .next (txRun ((cellItems b).map .item) s) := rfl
      _ = _ := by rw [txRun_cell, sent_cells_eq]

/-! ### Words and frames (R311, R312) -/

theorem length_wordCells (w : U4) : (wordCells w).length = 5 := rfl

theorem count_wordCells_odd (w : U4) : (wordCells w).count true % 2 = 1 := by
  unfold wordCells
  generalize w.getLsbD 0 = a, w.getLsbD 1 = b, w.getLsbD 2 = c, w.getLsbD 3 = d
  revert a b c d
  decide

/-- The parity cell is the last one: its bit says whether the word's ones are even in number. -/
theorem wordCells_eq_concat (w : U4) :
    wordCells w = [w.getLsbD 0, w.getLsbD 1, w.getLsbD 2, w.getLsbD 3]
      ++ [!(w.getLsbD 0 ^^ w.getLsbD 1 ^^ w.getLsbD 2 ^^ w.getLsbD 3)] := by
  rw [← cdWordBits_eq_wordCells, cdWordBits]
  simp only [Bool.true_xor, Bool.not_xor, List.cons_append, List.nil_append]

/-- A word leaves the clock high and the data line at the exclusive-or of its bits. -/
theorem txRun_word (w : U4) (s : State) :
    txRun (((wordCells w).flatMap cellItems).map .item) s =
      sent (10 * ticks200 s.cfg.tick) ((wordCells w).flatMap cellItems) s.tx0 s.tx1 true
        (w.getLsbD 0 ^^ w.getLsbD 1 ^^ w.getLsbD 2 ^^ w.getLsbD 3) s := by
  have ticks : (wordCells w).length * (2 * ticks200 s.cfg.tick) = 10 * ticks200 s.cfg.tick := by
    rw [length_wordCells]; omega
  rw [← ticks, wordCells_eq_concat, txRun_cells, Bool.not_not]

/-- Settles O46: the last of the five cells is the parity bit, so it decides the data line. -/
theorem cdWordSendsFiveCellsOfOddParity : Obligations.CdWordSendsFiveCellsOfOddParity := by
  refine fun w s => ⟨?_, count_wordCells_odd w⟩
  calc exec (.cdWord w) s
      = .next (txRun (((wordCells w).flatMap cellItems).map .item) s) := by rw [← cdWordItems_eq]; rfl
    _ = _ := by rw [txRun_word, sent_cells_eq]

theorem length_frameCells (words : List U4) : (frameCells words).length = 20 + 5 * (words.length + 1) := by
  have cells : (words.flatMap wordCells).length = 5 * words.length := by
    induction words with
    | nil => rfl
    | cons w words ih => rw [List.flatMap_cons, List.length_append, ih, length_wordCells, List.length_cons]; omega
  rw [frameCells, List.length_append, List.length_append, List.length_append, cells, length_wordCells,
    List.length_replicate]
  omega

/-- A frame ends with a 0 cell. -/
theorem frameCells_eq_concat (words : List U4) : ∃ cells, frameCells words = cells ++ [false] :=
  ⟨_, (List.append_assoc _ (List.replicate 9 false) [false]).symm⟩

/-- A frame leaves the clock and the data line high. -/
theorem txRun_frame (words : List U4) (s : State) :
    txRun (frameMicroSteps words) s =
      sent ((20 + 5 * (words.length + 1)) * (2 * ticks200 s.cfg.tick)) ((frameCells words).flatMap cellItems)
        s.tx0 s.tx1 true true s := by
  obtain ⟨cells, h⟩ := frameCells_eq_concat words
  rw [frameMicroSteps, ← length_frameCells, h, txRun_cells, Bool.not_false]

/-- Settles O47: the frame's last cell is a 0. -/
theorem cdFrameFramesTheWords : Obligations.CdFrameFramesTheWords := by
  refine fun words s => ⟨?_, length_frameCells words⟩
  calc exec (.cdFrame words) s
      = .next (txRun (frameMicroSteps words) s) := by rw [frameMicroSteps, ← cdFrameItems_eq]; rfl
    _ = _ := by rw [txRun_frame, sent_cells_eq]

end Sys2Proof.Machine

/-! R305, R315 and R318: the three transmissions run whole. -/

namespace Sys2Proof.Machine

/-- A transmission of nothing: the value is zero, and only that is recorded. -/
theorem txRun_zeroCredential (s : State) :
    txRun [.record .zeroCredential] s = { s with outcomes := s.outcomes ++ [.zeroCredential] } := rfl

theorem exec_tx32_of_not_between (v : U32) {s : State} (inside : ¬ BetweenOperations s) : exec (.tx32 v) s = .next s :=
  congrArg Host.Outcome.next (whenever_not_pollFree _ inside)

theorem exec_txcred_of_not_between (v : U32) {s : State} (inside : ¬ BetweenOperations s) :
    exec (.txcred v) s = .next s :=
  congrArg Host.Outcome.next (whenever_not_pollFree _ inside)

theorem exec_txkey_of_not_between (c : Key) {s : State} (inside : ¬ BetweenOperations s) :
    exec (.txkey c) s = .next s :=
  congrArg Host.Outcome.next (whenever_not_pollFree _ inside)

/-! ### TX32 (R305) -/

theorem tx32Steps_of_ne_zero {v : U32} (h : v ≠ 0) :
    tx32Steps v = .setIntEnable false :: pulseMicroSteps v ++ [.setIntEnable true] := by
  rw [tx32Steps_eq, tx32MicroSteps, if_neg h]

theorem tx32Steps_zero : tx32Steps 0 = [.record .zeroCredential] := rfl

/-- TX32 on idle lines: its 32 pulses, and interrupts enabled after them. -/
theorem txRun_tx32Steps {v : U32} (nonzero : v ≠ 0) {s : State} (idle0 : s.tx0 = true) (idle1 : s.tx1 = true) :
    txRun (tx32Steps v) s =
      { sent (32 * (ticks40 s.cfg.tick + ticks200 s.cfg.tick))
          ((List.range 32).flatMap fun j => pulseItems (v.getLsbD (31 - j))) s.tx0 s.tx1 s.txClk s.txData s with
        intEnable := true } := by
  have pulses : pulseMicroSteps v =
      (((List.range 32).map fun j => v.getLsbD (31 - j)).flatMap pulseItems).map .item := by
    rw [pulseMicroSteps, List.flatMap_map]
  rw [tx32Steps_of_ne_zero nonzero, txRun_append, txRun_cons _ (pulseMicroSteps v), pulses,
    txRun_pulses _ (s := txStep (.setIntEnable false) s) idle0 idle1, List.flatMap_map, List.length_map,
    List.length_range, idle0, idle1]
  rfl

/-- Settles O48: by the run of the 32 pulses, whose lines are idle before and after. -/
theorem tx32SendsTheBitsMostSignificantFirst : Obligations.Tx32SendsTheBitsMostSignificantFirst := by
  refine fun v s => ⟨fun between idle0 idle1 nonzero => ?_, fun between zero => ?_, exec_tx32_of_not_between v⟩
  · rw [exec_tx32 v between, txRun_tx32Steps nonzero idle0 idle1, sent_pulses_eq, ← adv_eq_oneTick_iterate]
    rfl
  · rw [exec_tx32 v between, zero, tx32Steps_zero, txRun_zeroCredential]

/-! ### TXCRED (R315) -/

/-- Settles O49: one frame of the ten words of the credential. -/
theorem txcredSendsTheEightDigits : Obligations.TxcredSendsTheEightDigits := by
  refine fun v s => ⟨fun between nonzero => ?_, fun between zero => ?_, exec_txcred_of_not_between v⟩
  · rw [exec_txcred v between, txCredSteps_eq, txcredMicroSteps, if_neg nonzero, txRun_frame, sent_cells_eq]
    rfl
  · rw [exec_txcred v between, txCredSteps_eq, txcredMicroSteps, if_pos zero, txRun_zeroCredential]

/-! ### TXKEY (R318) -/

theorem length_keypressWords (p : Params) (c : Key) : (keypressWords p c).length = 6 := by
  rw [keypressWords, List.length_map, List.length_finRange]

theorem slot2At_lt (L : KeyLayout) : slot2At L < 6 := Nat.mod_lt _ (by decide)

/-- The two slots stand at two different places: the gap is less than a whole turn. -/
theorem slot2At_ne_slot1 (L : KeyLayout) : slot2At L ≠ L.slot1.val := by
  have := L.slot1.isLt
  have := L.slot2Gap.isLt
  unfold slot2At
  omega

/-- The word of the keypress frame at place `j`. -/
theorem keypressWords_getElem? (p : Params) (c : Key) (j : Fin 6) :
    (keypressWords p c)[j.val]? =
      some (keyWord p (BitVec.ofNat 4 (keySlots c).1) (BitVec.ofNat 4 (keySlots c).2) j) := by
  rw [← keyWords_eq, keyWords, keyFrame_eq_map, ← keyCode_digits]
  simp

theorem keyWord_slot1 (p : Params) (a b : U4) : keyWord p a b p.keyLayout.slot1 = a := if_pos rfl

theorem keyWord_slot2 (p : Params) (a b : U4) {j : Fin 6} (h : j.val = slot2At p.keyLayout) : keyWord p a b j = b := by
  have ne : j ≠ p.keyLayout.slot1 := fun e => slot2At_ne_slot1 p.keyLayout (by rw [← h, e])
  rw [keyWord, if_neg ne, if_pos h]

theorem keyWord_sentinel (p : Params) (a b : U4) {j : Fin 6} (h1 : j ≠ p.keyLayout.slot1)
    (h2 : j.val ≠ slot2At p.keyLayout) : keyWord p a b j = sentinelWord p (p.keyLayout.fill.get j) := by
  rw [keyWord, if_neg h1, if_neg h2]

/-- Settles O50: one frame of six words, each by its place in the layout. -/
theorem txkeySendsSixWordsWithTheTwoSlots : Obligations.TxkeySendsSixWordsWithTheTwoSlots := by
  refine fun c s => ⟨fun between => ?frame, ⟨length_keypressWords s.cfg c, slot2At_lt _, slot2At_ne_slot1 _, ?slot1,
    ?slot2, fun j h1 h2 => ?sentinel⟩, exec_txkey_of_not_between c⟩
  case frame =>
    rw [exec_txkey c between, txKeySteps_eq, txRun_frame, length_keypressWords, sent_cells_eq]
  case slot1 => rw [keypressWords_getElem?, keyWord_slot1]
  case slot2 =>
    rw [keypressWords_getElem? s.cfg c ⟨slot2At s.cfg.keyLayout, slot2At_lt _⟩, keyWord_slot2 _ _ _ rfl]
  case sentinel => rw [keypressWords_getElem?, keyWord_sentinel _ _ _ h1 h2]

end Sys2Proof.Machine

/-! R300, R305 and R356: the polling context's invariant. -/

namespace Sys2Proof.Machine

/-! ### The output lines -/

/-- From `s` to `t` no output line changes. -/
abbrev SameLines (s t : State) : Prop :=
  t.tx0 = s.tx0 ∧ t.tx1 = s.tx1 ∧ t.txClk = s.txClk ∧ t.txData = s.txData

theorem SameLines.linesHigh {s t : State} (h : SameLines s t) (high : LinesHigh s) : LinesHigh t := by
  obtain ⟨tx0, tx1, clk, data⟩ := h
  rwa [LinesHigh, tx0, tx1, clk, data]

/-- Where a micro-step leaves the lines depends on the lines alone. -/
theorem SameLines.txStep {s t : State} (h : SameLines s t) (m : TxStep) : SameLines (txStep m s) (txStep m t) := by
  obtain ⟨tx0, tx1, clk, data⟩ := h
  match m with
  | .item (.emit .tx0 _) => exact ⟨rfl, tx1, clk, data⟩
  | .item (.emit .tx1 _) => exact ⟨tx0, rfl, clk, data⟩
  | .item (.emit .txClk _) => exact ⟨tx0, tx1, rfl, data⟩
  | .item (.emit .txData _) => exact ⟨tx0, tx1, clk, rfl⟩
  | .item (.wait _) | .setIntEnable _ | .record _ => exact ⟨tx0, tx1, clk, data⟩

theorem SameLines.txRun {s t : State} (h : SameLines s t) (ms : List TxStep) :
    SameLines (txRun ms s) (txRun ms t) := by
  induction ms generalizing s t with
  | nil => exact h
  | cons m ms ih => exact ih (h.txStep m)

/-! ### What a transmission leaves to come -/

/-- What may be left of a transmission: items alone, or with interrupts masked items and then the unmasking. -/
def Remaining (ms : List TxStep) (s : State) : Prop :=
  ∃ items : List TraceItem, ms = items.map TxStep.item ∨
    (ms = items.map TxStep.item ++ [.setIntEnable true] ∧ s.intEnable = false)

theorem remaining_nil (s : State) : Remaining [] s := ⟨[], .inl rfl⟩

theorem Remaining.of_masked {ms : List TxStep} {s t : State} (h : Remaining ms s)
    (masked : s.intEnable = false → t.intEnable = false) : Remaining ms t := by
  obtain ⟨items, plain | ⟨tx32, off⟩⟩ := h
  · exact ⟨items, .inl plain⟩
  · exact ⟨items, .inr ⟨tx32, masked off⟩⟩

theorem txStep_item_intEnable (x : TraceItem) (s : State) : (txStep (.item x) s).intEnable = s.intEnable := by
  cases x with
  | emit sig _ => cases sig <;> rfl
  | wait _ => rfl

/-- The next micro-step leaves what may be left: an item keeps the mask, and the unmasking is the last. -/
theorem Remaining.txStep {m : TxStep} {rest : List TxStep} {s : State} (h : Remaining (m :: rest) s) :
    Remaining rest (txStep m s) := by
  obtain ⟨items, plain | ⟨tx32, off⟩⟩ := h
  · cases items with
    | nil => cases plain
    | cons x items =>
      obtain ⟨-, rfl⟩ := List.cons.inj plain
      exact ⟨items, .inl rfl⟩
  · cases items with
    | nil =>
      obtain ⟨-, rfl⟩ := List.cons.inj tx32
      exact remaining_nil _
    | cons x items =>
      obtain ⟨rfl, rfl⟩ := List.cons.inj tx32
      exact ⟨items, .inr ⟨rfl, (txStep_item_intEnable x s).trans off⟩⟩

/-- What a transmission has to be: its first micro-step leaves what may be left, and it ends with the lines high. -/
structure IsTransmission (ms : List TxStep) : Prop where
  remaining : ∀ m rest, ms = m :: rest → ∀ s, Remaining rest (txStep m s)
  linesHigh : ∀ s, LinesHigh s → LinesHigh (txRun ms s)

theorem isTransmission_nil : IsTransmission [] := ⟨nofun, fun _ => id⟩

theorem isTransmission_record (o : ErrorOutcome) : IsTransmission [.record o] where
  remaining m rest h s := by
    obtain ⟨-, rfl⟩ := List.cons.inj h
    exact remaining_nil _
  linesHigh _ := id

theorem isTransmission_frame (words : List U4) : IsTransmission (frameMicroSteps words) where
  remaining m rest h s := Remaining.txStep (h ▸ ⟨_, .inl rfl⟩)
  linesHigh s high := by
    rw [txRun_frame]
    exact ⟨high.1, high.2.1, rfl, rfl⟩

theorem isTransmission_tx32Steps (v : U32) : IsTransmission (tx32Steps v) := by
  by_cases zero : v = 0
  · rw [zero, tx32Steps_zero]
    exact isTransmission_record _
  · refine ⟨fun m rest h s => ?_, fun s high => ?_⟩
    · rw [tx32Steps_of_ne_zero zero] at h
      obtain ⟨rfl, rfl⟩ := List.cons.inj h
      exact ⟨_, .inr ⟨rfl, rfl⟩⟩
    · rw [txRun_tx32Steps zero high.1 high.2.1]
      exact high

theorem isTransmission_txCredSteps (p : Params) (v : U32) : IsTransmission (txCredSteps p v) := by
  rw [txCredSteps_eq, txcredMicroSteps]
  split
  · exact isTransmission_record _
  · exact isTransmission_frame _

theorem isTransmission_txKeySteps (p : Params) (c : Key) : IsTransmission (txKeySteps p c) := by
  rw [txKeySteps_eq]
  exact isTransmission_frame _

theorem isTransmission_forwardSteps (p : Params) (x : XlateOption) (res : WgResult) :
    IsTransmission (forwardSteps p x res) := by
  match x, res with
  | .none, _ => exact isTransmission_nil
  | .fmt32, .cred r => exact isTransmission_tx32Steps r
  | .fmt32, .nothing | .fmt32, .noise _ | .fmt32, .zero | .fmt32, .key _ => exact isTransmission_nil
  | .clockData, .cred r => exact isTransmission_txCredSteps p r
  | .clockData, .nothing | .clockData, .noise _ | .clockData, .zero => exact isTransmission_nil
  | .clockData, .key code =>
    rw [forwardSteps_key]
    cases wgKeymap code with
    | none => exact isTransmission_nil
    | some c => exact isTransmission_txKeySteps p c

/-! ### The invariant, and what establishes it -/

/-- No WGPOLL and no transmission is going on, and all lines are high. -/
abbrev Settled (s : State) : Prop := s.wgTaken = none ∧ s.txRest = [] ∧ LinesHigh s

theorem Settled.pollInv {s : State} (h : Settled s) : PollInv s := by
  obtain ⟨taken, rest, high⟩ := h
  refine ⟨fun _ => rest, fun going => ?_, ⟨[], .inl rest⟩, by rw [rest]; exact high⟩
  exact absurd going (not_or.2 ⟨not_not_intro taken, not_not_intro rest⟩)

theorem settled_of_txFree {s : State} (inv : PollInv s) (free : txFree s = true) : Settled s := by
  obtain ⟨taken, rest⟩ := (txFree_iff s).1 free
  obtain ⟨-, -, -, high⟩ := inv
  rw [rest] at high
  exact ⟨taken, rest, high⟩

/-- The invariant reads the place in the composite operation, the lock, the lines, and whether interrupts are masked. -/
theorem PollInv.of_same {s t : State} (inv : PollInv s) (taken : t.wgTaken = s.wgTaken) (rest : t.txRest = s.txRest)
    (lock : t.drainLock = s.drainLock) (lines : SameLines s t) (masked : s.intEnable = false → t.intEnable = false) :
    PollInv t := by
  obtain ⟨nothingYet, unlocked, remaining, high⟩ := inv
  rw [PollInv, taken, rest, lock]
  exact ⟨nothingYet, unlocked, Remaining.of_masked remaining masked, (lines.txRun s.txRest).linesHigh high⟩

/-- A micro-step outside a drain that leaves what may be left, and high lines after that. -/
theorem pollInv_txStep {m : TxStep} {rest : List TxStep} {s : State} (taken : s.wgTaken = none)
    (unlocked : s.drainLock = false) (remaining : Remaining rest (txStep m s))
    (high : LinesHigh (txRun (m :: rest) s)) : PollInv { txStep m s with txRest := rest } := by
  have taken' : (txStep m s).wgTaken = none := (txStep_wgTaken m s).trans taken
  have unlocked' : (txStep m s).drainLock = false := by rw [txStep_eq]; exact unlocked
  have lines : SameLines (txStep m s) { txStep m s with txRest := rest } := ⟨rfl, rfl, rfl, rfl⟩
  exact ⟨fun h => absurd taken' h, fun _ => unlocked', remaining, (lines.txRun rest).linesHigh high⟩

theorem pollInv_txStart {ms : List TxStep} {s : State} (tx : IsTransmission ms) (settled : Settled s)
    (unlocked : s.drainLock = false) : PollInv (txStart ms s) := by
  have ⟨taken, _, high⟩ := settled
  cases ms with
  | nil => exact settled.pollInv
  | cons m rest => exact pollInv_txStep taken unlocked (tx.remaining m rest rfl s) (tx.linesHigh s high)

theorem pollInv_wgStart {s : State} (settled : Settled s) (unlocked : s.drainLock = false) : PollInv (wgStart s) := by
  have ⟨taken, rest, high⟩ := settled
  cases complete : wgComplete s with
  | true =>
    rw [wgStart_of_complete complete]
    exact ⟨fun _ => rest, fun _ => unlocked, ⟨[], .inl rest⟩, by rw [rest]; exact high⟩
  | false =>
    rw [wgStart_of_not_complete complete]
    exact Settled.pollInv settled

/-- The next micro-step of the composite operation in progress keeps the invariant. -/
theorem pollInv_resume {s : State} (inv : PollInv s) : PollInv (resume s) := by
  have ⟨nothingYet, unlocked, remaining, high⟩ := inv
  cases taken : s.wgTaken with
  | some msg =>
    have waiting : s.wgTaken ≠ none := by rw [taken]; exact nofun
    have rest : s.txRest = [] := nothingYet waiting
    rw [rest] at high
    rw [resume_of_wgTaken taken]
    exact pollInv_txStart (isTransmission_forwardSteps _ _ _) ⟨rfl, rest, high⟩ (unlocked (.inl waiting))
  | none =>
    rw [resume_eq_nextMicroStep taken]
    cases left : s.txRest with
    | nil => exact inv
    | cons m rest =>
      rw [left] at remaining high
      have lock : s.drainLock = false := unlocked (.inr (by rw [left]; exact nofun))
      have next : nextMicroStep (m :: rest) s = { txStep m s with txRest := rest } :=
        (txStep_eq_performed m _).symm.trans (txStep_txRest m rest s)
      rw [next]
      exact pollInv_txStep taken lock (Remaining.txStep remaining) high

/-! ### What every step keeps -/

theorem settled_txRun {ms : List TxStep} {s : State} (tx : IsTransmission ms) (settled : Settled s) :
    Settled (txRun ms s) := by
  obtain ⟨taken, rest, high⟩ := settled
  exact ⟨by rw [txRun_eq]; exact taken, (txRun_txRest ms s).trans rest, tx.linesHigh s high⟩

theorem settled_wgPoll {s : State} (settled : Settled s) : Settled (wgPoll s) := by
  cases complete : wgComplete s with
  | true =>
    rw [wgPoll_of_complete complete]
    exact settled_txRun (isTransmission_forwardSteps _ _ _) settled
  | false =>
    rw [wgPoll_of_not_complete complete]
    exact settled

theorem settled_drainBegin {s : State} (settled : Settled s) : Settled (drainBegin s).1 := by
  unfold drainBegin
  split <;> exact settled

theorem settled_drainStep {s : State} (settled : Settled s) : Settled (drainStep s).1 := by
  rcases drainStep_cases s with ⟨-, done⟩ | ⟨-, -, event⟩
  · rw [done]; exact settled
  · obtain ⟨is, os, dispatched, -⟩ := dispatchAll_eq (s.slots.read (tailIdx s))
      { s with qTail := nextIdx s.cfg (tailIdx s), drainN := s.drainN + 1 }
    rw [event, dispatched]
    exact settled

theorem settled_drain {s : State} (settled : Settled s) : Settled (drain s) := by
  unfold drain
  split
  · exact drainLoop_invariant (P := Settled) (fun _ => settled_drainStep) _ _ (settled_drainBegin settled)
  · exact settled_drainBegin settled

theorem settled_irReadAt (i : Nat) {s : State} (settled : Settled s) : Settled (irReadAt i s) := by
  unfold irReadAt
  split <;> exact settled

theorem txFree_of_pollFree {s : State} (h : pollFree s = true) : txFree s = true :=
  (Bool.and_eq_true_iff.1 h).2

theorem txFree_of_inDrain {s : State} (h : inDrain s = true) : txFree s = true :=
  (Bool.and_eq_true_iff.1 h).2

theorem txFree_of_registerEnabled {s : State} {legal : Bool} (h : (registerEnabled s && legal) = true) :
    txFree s = true :=
  txFree_of_pollFree (Bool.and_eq_true_iff.1 (Bool.and_eq_true_iff.1 h).1).2

/-- A polling operation keeps the invariant where its effect establishes it from a settled state, for it is enabled only
while no WGPOLL and no transmission is going on. -/
theorem PollInv.whenever {f : State → State} {b : Bool} {s : State} (inv : PollInv s)
    (free : b = true → txFree s = true) (effect : b = true → Settled s → PollInv (f s)) : PollInv (whenever b f s) := by
  rcases whenever_cases b f s with ⟨enabled, done⟩ | ⟨-, blocked⟩
  · rw [done]; exact effect enabled (settled_of_txFree inv (free enabled))
  · rw [blocked]; exact inv

/-- The same where the effect leaves a settled state settled, as that of an operation run whole does. -/
theorem PollInv.whenever_settled {f : State → State} {b : Bool} {s : State} (inv : PollInv s)
    (free : b = true → txFree s = true) (effect : Settled s → Settled (f s)) : PollInv (Machine.whenever b f s) :=
  inv.whenever free fun _ settled => (effect settled).pollInv

/-- Run whole, every polling operation keeps a settled state settled; RESET settles any state. -/
theorem exec_poll_pollInv {i : Instr} {s t : State} (agent : i.agent = .poll) (h : exec i s = .next t)
    (inv : PollInv s) : PollInv t := by
  cases i with
  | reset => cases h; exact Settled.pollInv ⟨rfl, rfl, rfl, rfl, rfl, rfl⟩
  | cli | sti | now => cases h; exact inv.whenever_settled txFree_of_pollFree id
  | drain => cases h; exact inv.whenever_settled id settled_drain
  | drainBegin => cases h; exact inv.whenever_settled id settled_drainBegin
  | drainStep => cases h; exact inv.whenever_settled txFree_of_inDrain settled_drainStep
  | drainEnd => cases h; exact inv.whenever_settled txFree_of_inDrain id
  | irread k => cases h; exact inv.whenever_settled txFree_of_pollFree (settled_irReadAt k.toNat)
  | register => cases h; exact inv.whenever_settled txFree_of_registerEnabled id
  | wgpoll => cases h; exact inv.whenever_settled txFree_of_pollFree settled_wgPoll
  | tx32 v => cases h; exact inv.whenever_settled txFree_of_pollFree (settled_txRun (isTransmission_tx32Steps v))
  | txcred v => cases h; exact inv.whenever_settled txFree_of_pollFree (settled_txRun (isTransmission_txCredSteps _ v))
  | txkey c => cases h; exact inv.whenever_settled txFree_of_pollFree (settled_txRun (isTransmission_txKeySteps _ c))
  | _ => cases agent

theorem EnvFrame.pollInv {s t : State} (h : EnvFrame s t) (inv : PollInv s) : PollInv t := by
  obtain ⟨n, rest⟩ := h.rest
  have keep {α : Type} (f : State → α) : f (blankEnv t) = f (adv n (blankEnv s)) := congrArg f rest
  exact inv.of_same (keep State.wgTaken) (keep State.txRest) (keep State.drainLock)
    ⟨keep State.tx0, keep State.tx1, keep State.txClk, keep State.txData⟩ (keep State.intEnable).trans

/-- A service writes no field of the polling context, and a masked one does nothing: TX32 stays masked. -/
theorem exec_irq_pollInv {i : Instr} {s t : State} (agent : i.agent = .irq) (h : exec i s = .next t)
    (inv : PollInv s) : PollInv t := by
  have frame := exec_irq_frame agent h
  refine inv.of_same (frame.field State.wgTaken) (frame.field State.txRest) (frame.field State.drainLock)
    ⟨frame.field State.tx0, frame.field State.tx1, frame.field State.txClk, frame.field State.txData⟩ fun off => ?_
  rw [exec_irq_of_masked agent off] at h
  cases h
  exact off

theorem exec_pollInv {i : Instr} {s t : State} (hi : i.agent ≠ .sub) (h : exec i s = .next t) (inv : PollInv s) :
    PollInv t := by
  cases agent : i.agent with
  | env => exact (exec_env_frame agent h).pollInv inv
  | irq => exact exec_irq_pollInv agent h inv
  | poll => exact exec_poll_pollInv agent h inv
  | sub => exact absurd agent hi

/-- The first micro-step of a composite operation, which starts only outside a drain. -/
theorem startOp_pollInv {i : Instr} {s t : State} (h : startOp i s = some t) (inv : PollInv s) : PollInv t := by
  have unlocked : pollFree s = true → s.drainLock = false := fun free => ((pollFree_iff s).1 free).1
  cases i with
  | tx32 v =>
    cases h
    exact inv.whenever txFree_of_pollFree fun free settled =>
      pollInv_txStart (isTransmission_tx32Steps v) settled (unlocked free)
  | txcred v =>
    cases h
    exact inv.whenever txFree_of_pollFree fun free settled =>
      pollInv_txStart (isTransmission_txCredSteps _ v) settled (unlocked free)
  | txkey c =>
    cases h
    exact inv.whenever txFree_of_pollFree fun free settled =>
      pollInv_txStart (isTransmission_txKeySteps _ c) settled (unlocked free)
  | wgpoll =>
    cases h
    exact inv.whenever txFree_of_pollFree fun free settled => pollInv_wgStart settled (unlocked free)
  | drain => cases h; exact inv.whenever_settled id settled_drainBegin
  | _ => cases h

theorem configure_pollInv (code : Int) {s : State} (inv : PollInv s) : PollInv (configure code s) := by
  unfold configure
  split
  · exact inv.of_same rfl rfl rfl ⟨rfl, rfl, rfl, rfl⟩ id
  · exact inv

theorem step_pollInv {s t : State} (h : step s = .next t) (inv : PollInv s) : PollInv t := by
  replace inv : PollInv { s with stim := s.stim.tail } := inv.of_same rfl rfl rfl ⟨rfl, rfl, rfl, rfl⟩ id
  cases step_kind h with
  | nothing h => rwa [h]
  | whole i hi h => exact exec_pollInv hi h inv
  | first i h => exact startOp_pollInv h inv
  | next h => rw [h]; exact pollInv_resume inv
  | provider code h => rw [h]; exact configure_pollInv code inv

/-- Settles O59: by what the step performs; TX32's start is its masking. -/
theorem everyStepKeepsThePollingInvariant : Obligations.EveryStepKeepsThePollingInvariant := by
  refine ⟨fun s t inv h => ⟨step_pollInv h inv, fun rest => ?high⟩, fun v s between nonzero => ?tx32⟩
  case high =>
    obtain ⟨-, -, -, high⟩ := step_pollInv h inv
    rwa [rest] at high
  case tx32 =>
    rw [startOp_tx32 v between, tx32Steps_of_ne_zero nonzero]
    rfl

end Sys2Proof.Machine

/-! R352: when an interrupt service runs, and that it clears its pending bit. -/

namespace Sys2Proof.Machine

/-- R352 in the words of the rule. -/
theorem irqEnabled_iff {src : IrqSource} {s : State} :
    irqEnabled src s = true ↔
      s.intEnable = true ∧ irqPending src s = true ∧ ∀ above ∈ irqAbove src, irqPending above s = false := by
  simp [irqEnabled, and_assoc]

/-- A service that is not enabled changes nothing (R105). -/
theorem service_of_not_enabled {src : IrqSource} {s : State} (body : State → State) (h : ¬ irqEnabled src s = true) :
    service src body s = s := if_neg h

theorem irqPending_irqExit (src : IrqSource) (s : State) : irqPending src (irqExit s) = irqPending src s := by
  cases src <;> rfl

/-- ENQ touches no pending bit. -/
theorem irqPending_enq (src : IrqSource) (e : EdgeEvent) (s : State) : irqPending src (enq e s) = irqPending src s := by
  rw [enq_eq]
  cases src <;> rfl

/-- The body of ISR_TOV clears the flag, which entry leaves. -/
theorem tovBody_ovfFlag (s : State) : (tovBody s).ovfFlag = false := by rw [tovBody, tickEnq_eq]

/-- A service whose enablement is `P` and whose entry and body clear its pending bit runs exactly where `P` holds. -/
theorem service_runs_iff {src : IrqSource} {body : State → State} {s : State} {P : Prop}
    (enablement : irqEnabled src s = true ↔ P) (clears : irqPending src (body (irqEnter src s)) = false) :
    (P → ∃ t, (.next (service src body s) : Host.Outcome State Fault Refusal) = .next t ∧ irqPending src t = false) ∧
    (¬ P → (.next (service src body s) : Host.Outcome State Fault Refusal) = .next s) := by
  refine ⟨fun holds => ⟨_, rfl, ?_⟩, fun fails => ?_⟩
  · rw [service_of_enabled body (enablement.2 holds), irqPending_irqExit, clears]
  · rw [service_of_not_enabled body (mt enablement.1 fails)]

/-- Settles O17: the sources above by their list; entry clears the pending bit and the body leaves it, except that
TOV's flag is cleared by the body. -/
theorem serviceRunsExactlyWhenEnabled : Obligations.ServiceRunsExactlyWhenEnabled := by
  intro s go noCapt noPca noWg
  refine ⟨service_runs_iff (src := .capt) ?capt (irqPending_enq ..),
    service_runs_iff (src := .pca) ?pca (irqPending_enq ..),
    service_runs_iff (src := .wg0) ?wg0 rfl, service_runs_iff (src := .wg1) ?wg1 rfl,
    service_runs_iff (src := .tov) ?tov (tovBody_ovfFlag _)⟩
  all_goals simp [irqEnabled_iff, irqAbove, irqPending, go, noCapt, noPca, noWg]

end Sys2Proof.Machine

/-! R200 and R355: REGISTER. -/

namespace Sys2Proof.Machine

/-- R200: a mask of one bit is one of the eight powers of two. -/
theorem oneBit_iff {mask : U8} : oneBit mask = true ↔ ∃ k < 8, mask = BitVec.ofNat 8 (2 ^ k) := by
  revert mask
  decide

theorem registerLegal_iff {source : Source} {mask : U8} :
    registerLegal source mask = true ↔ (∃ k < 8, mask = BitVec.ofNat 8 (2 ^ k)) ∧ (source = .timer → mask = 1) := by
  rw [← oneBit_iff]
  cases source <;> simp [registerLegal]

/-- R355 in the words of the rule, between operations (R353). -/
theorem registerEnabled_iff {s : State} :
    registerEnabled s = true ↔
      s.setup = true ∧ s.intEnable = false ∧ s.inst.length < s.cfg.nInst ∧ BetweenOperations s := by
  simp [registerEnabled, pollFree_iff, and_assoc]

/-- Settles O27: REGISTER's two conditions are the model's two checks. -/
theorem registerAppendsAnInstanceDuringSetup : Obligations.RegisterAppendsAnInstanceDuringSetup := by
  intro source mask rate s legal enabled
  have guard : (registerEnabled s && registerLegal source mask) = true ↔ legal ∧ enabled := by
    rw [Bool.and_eq_true, registerEnabled_iff, registerLegal_iff, and_comm]
  rcases whenever_cases (registerEnabled s && registerLegal source mask)
    (registerInst (newInstance source .infrared mask rate)) s with ⟨allowed, done⟩ | ⟨refused, blocked⟩
  · exact ⟨fun _ => congrArg Host.Outcome.next done, fun fails => absurd (guard.1 allowed) fails⟩
  · have fails : ¬ (legal ∧ enabled) := mt guard.2 (by rw [refused]; exact Bool.false_ne_true)
    exact ⟨fun holds => absurd holds fails, fun _ => congrArg Host.Outcome.next blocked⟩

end Sys2Proof.Machine

/-! R380, R355 and R381: RESET. -/

namespace Sys2Proof.Machine

/-- RESET is enabled at any time, inside a composite operation too. -/
theorem exec_reset (s : State) : exec .reset s = .next (resetBlock s) := rfl

theorem atReset_reset : AtReset State.reset := by decide

/-- R380 says nothing of the fields that RESET takes over from the state before. -/
theorem atReset_resetBlock (s : State) : AtReset (resetBlock s) := by
  show AtReset State.reset
  exact atReset_reset

theorem betweenOperations_reset : BetweenOperations State.reset := by decide

/-- Settles O9: RESET is the initial state but for the parameters, the translation option and the input, which it
takes over. -/
theorem resetPutsEveryFieldAtItsResetValue : Obligations.ResetPutsEveryFieldAtItsResetValue := by
  refine ⟨fun s => ⟨resetBlock s, exec_reset s, atReset_resetBlock s, ?remaining⟩,
    atReset_reset, rfl, rfl, betweenOperations_reset⟩
  case remaining => exact ⟨rfl, rfl, rfl, rfl, rfl, rfl⟩

end Sys2Proof.Machine

/-! R101 to R104: the round trips between an operation and its word. -/

namespace Sys2Proof

/-- The rows of the encoder are the rows of the decoder: the operands that an operation may have are read back. -/
theorem decode_of_encode {i : Instr} {w : SelectWord} (legal : i.wellFormed = true) (h : encode i = some w) :
    decode w = .ok i := by
  cases i with
  | adv n | tx32 v | txcred v =>
    cases h
    rw [decode_joinFields]
    exact decodeB_eq_ok_iff.2 ⟨rfl, rfl⟩
  | capedge l | wgpulse l =>
    cases h
    rw [decode_joinFields]
    exact decodeBit_eq_ok_iff.2 ⟨l, rfl, rfl, rfl⟩
  | pgaset v | irread v =>
    cases h
    rw [decode_joinFields]
    exact decodeA_eq_ok_iff.2 ⟨rfl, rfl⟩
  | txkey c =>
    cases h
    rw [decode_joinFields]
    exact decodeKey_eq_ok_iff.2 ⟨c, rfl, rfl, rfl⟩
  | register source protocol mask rate =>
    cases h
    cases protocol
    rw [decode_joinFields]
    exact decodeRegister_eq_ok_iff.2 ⟨source, mask, rate, legal, rfl, rfl, rfl⟩
  | reset | isrCapt | isrPca | isrWg0 | isrWg1 | isrTov | cli | sti | now | drain | wgpoll | drainBegin | drainStep
  | drainEnd =>
    cases h
    rw [decode_joinFields]
    exact decodePlain_eq_ok_iff.2 ⟨rfl, rfl, rfl⟩
  | _ => cases h

/-- R100: the operations without a word are those that no agent issues. -/
theorem encode_eq_none_iff (i : Instr) : encode i = none ↔ i.agent = .sub := by
  cases i <;> simp [encode, Instr.agent]

/-- Settles O3, by the kinds of operands in the table. -/
theorem decodeOfEncodeIsTheOperation : Obligations.DecodeOfEncodeIsTheOperation :=
  fun i legal => ⟨fun _ h => decode_of_encode legal h, encode_eq_none_iff i⟩

/-- Settles O4: the word of what a word decodes to has that word's fields. -/
theorem encodeOfDecodeIsTheWord : Obligations.EncodeOfDecodeIsTheWord := fun _ _ h => encode_of_decode h

/-- Settles O1, by running the decoder on each word. -/
theorem sampleWordsDecode : Obligations.SampleWordsDecode :=
  ⟨rfl, rfl, rfl, rfl, rfl, rfl, rfl, rfl, rfl, rfl, rfl, rfl, rfl, rfl⟩

end Sys2Proof

/-! R110: the packed EdgeEvent. -/

namespace Sys2Proof

theorem sourceOfBit_bitOfSource (source : Source) : sourceOfBit (bitOfSource source) = source := by
  cases source <;> rfl

theorem bitOfSource_sourceOfBit (b : Bool) : bitOfSource (sourceOfBit b) = b := by cases b <;> rfl

/-- The places of the fields, in arithmetic. -/
theorem EdgeEvent.pack_toNat (e : EdgeEvent) :
    e.pack.toNat = (bitOfSource e.source).toNat * 2 ^ 41 + e.tick.toNat * 2 ^ 40 + e.level.toNat * 2 ^ 32
      + e.timestamp.toNat := by
  unfold EdgeEvent.pack
  rw [BitVec.toNat_append, BitVec.toNat_append, BitVec.toNat_append, ← Nat.shiftLeft_add_eq_or_of_lt e.timestamp.isLt,
    ← Nat.shiftLeft_add_eq_or_of_lt e.level.isLt, ← Nat.shiftLeft_add_eq_or_of_lt (BitVec.ofBool e.tick).isLt,
    BitVec.toNat_ofBool, BitVec.toNat_ofBool, Nat.shiftLeft_eq, Nat.shiftLeft_eq, Nat.shiftLeft_eq]
  omega

theorem toNat_getLsbD (p : BitVec 42) (k : Nat) : (p.getLsbD k).toNat = p.toNat / 2 ^ k % 2 := Nat.toNat_testBit _ _

/-- Reading the four places of a packed record gives the four fields back. -/
theorem EdgeEvent.pack_fields (e : EdgeEvent) :
    e.pack.getLsbD 41 = bitOfSource e.source ∧ e.pack.getLsbD 40 = e.tick ∧ e.pack.extractLsb' 32 8 = e.level ∧
    e.pack.extractLsb' 0 32 = e.timestamp := by
  have value := e.pack_toNat
  have source := (bitOfSource e.source).toNat_lt
  have tick := e.tick.toNat_lt
  have level : e.level.toNat < 2 ^ 8 := e.level.isLt
  have timestamp : e.timestamp.toNat < 2 ^ 32 := e.timestamp.isLt
  refine ⟨?_, ?_, BitVec.eq_of_toNat_eq ?_, BitVec.eq_of_toNat_eq ?_⟩
  · rw [Bool.eq_iff_iff, ← Bool.toNat_eq_one, ← Bool.toNat_eq_one, toNat_getLsbD]; omega
  · rw [Bool.eq_iff_iff, ← Bool.toNat_eq_one, ← Bool.toNat_eq_one, toNat_getLsbD]; omega
  · rw [BitVec.extractLsb'_toNat, Nat.shiftRight_eq_div_pow]; omega
  · rw [BitVec.extractLsb'_toNat, Nat.shiftRight_zero]; omega

theorem EdgeEvent.unpack_pack (e : EdgeEvent) : EdgeEvent.unpack e.pack = e := by
  obtain ⟨source, tick, level, timestamp⟩ := e.pack_fields
  rw [EdgeEvent.unpack, source, tick, level, timestamp, sourceOfBit_bitOfSource]

/-- The four places cover the 42 bits. -/
theorem EdgeEvent.pack_unpack (p : BitVec 42) : (EdgeEvent.unpack p).pack = p := by
  have width : p.toNat < 2 ^ 42 := p.isLt
  apply BitVec.eq_of_toNat_eq
  rw [EdgeEvent.pack_toNat]
  simp only [EdgeEvent.unpack, bitOfSource_sourceOfBit, toNat_getLsbD, BitVec.extractLsb'_toNat,
    Nat.shiftRight_eq_div_pow]
  omega

/-- Settles O5: the places by the value of the packed record, the round trips by reading them. -/
theorem eventRecordLayoutAndRoundTrip : Obligations.EventRecordLayoutAndRoundTrip := by
  refine ⟨fun e => ?layout, EdgeEvent.unpack_pack, EdgeEvent.pack_unpack⟩
  have source : (bitOfSource e.source).toNat * 2 ^ 41 = if e.source = .pinGroupA then 2 ^ 41 else 0 := by
    cases e.source <;> rfl
  have tick : e.tick.toNat * 2 ^ 40 = if e.tick = true then 2 ^ 40 else 0 := by cases e.tick <;> rfl
  rw [EdgeEvent.pack_toNat, source, tick]

end Sys2Proof

/-! R340: no run stops. -/

namespace Sys2Proof.Machine

theorem issueWord_next (w : SelectWord) (s : State) : ∃ t, issueWord w s = .next t := by
  cases hw : decode w with
  | ok i =>
    rw [issueWord_of_decode s hw]
    exact exec_next i s
  | error e => exact ⟨s, issueWord_of_reject s hw⟩

theorem startWord_next (w : SelectWord) (s : State) : ∃ t, startWord w s = .next t := by
  cases hw : decode w with
  | ok i =>
    cases hu : startOp i s with
    | some u => exact ⟨u, startWord_of_startOp hw hu⟩
    | none =>
      rw [startWord_of_startOp_none hw hu]
      exact exec_next i s
  | error e => exact ⟨s, startWord_of_reject s hw⟩

/-- Without input the machine stutters. -/
theorem step_of_no_stim {s : State} (h : s.stim = []) : step s = .next s := by
  unfold step takeNext
  rw [h]

theorem step_next (s : State) : ∃ t, step s = .next t := by
  cases hs : s.stim with
  | nil => exact ⟨s, step_of_no_stim hs⟩
  | cons x rest =>
    rw [step_of_stim hs]
    match x with
    | .issue w => exact issueWord_next w _
    | .start w => exact startWord_next w _
    | .resume => exact ⟨_, rfl⟩
    | .configure code => exact ⟨_, rfl⟩

theorem run_succ_of_step {M : Host.Core} {s t : M.State} (k : Nat) (h : M.step s = .next t) :
    M.run (k + 1) s = M.run k t := by
  rw [Host.Core.run, h]

theorem runsForever (s : State) : RunsForever s := by
  intro k
  induction k generalizing s with
  | zero => exact ⟨s, rfl⟩
  | succ k ih =>
    obtain ⟨t, h⟩ := step_next s
    have first : Sys2Proof.core.run (k + 1) s = Sys2Proof.core.run k t := run_succ_of_step k h
    rw [first]
    exact ih t

/-- Settles O8, by induction on the number of steps, each of which answers a next state. -/
theorem everyRunGoesOn : Obligations.EveryRunGoesOn := fun s => ⟨runsForever s, step_of_no_stim⟩

end Sys2Proof.Machine

/-! R32, R35, R70 and R110: the queue's invariant. -/

namespace Sys2Proof.Machine

/-! ### The interrupt services enqueue legal records -/

theorem capLevel_and_upper (s : State) : capLevel s &&& 0xFE#8 = 0#8 := by
  rw [capLevel_eq]
  split <;> rfl

/-- The capture pin's level is one bit, so a Timer record of it is legal, with or without a tick (R30, R110). -/
theorem legal_of_capLevel (tick : Bool) (s : State) (ts : U32) :
    (EdgeEvent.mk .timer tick (capLevel s) ts).legal = true := by
  simp [EdgeEvent.legal, capLevel_and_upper]

theorem captEvent_legal (s : State) : (captEvent s).legal = true := legal_of_capLevel false s _

theorem tickEvent_legal (s : State) : (tickEvent s).legal = true := legal_of_capLevel true s _

theorem pcaEvent_legal (s : State) : (pcaEvent s).legal = true := rfl

theorem headIdx_lt (s : State) : headIdx s < qcap s.cfg := by
  rw [headIdx, and_qmask]
  exact Nat.mod_lt _ (Nat.zero_lt_of_lt (one_lt_qcap s.cfg))

theorem queueInv_enq {e : EdgeEvent} {s : State} (legal : e.legal = true) (inv : QueueInv s) : QueueInv (enq e s) := by
  rcases enq_cases e s with ⟨-, dropped⟩ | ⟨-, written⟩
  · rw [dropped]; exact inv
  · obtain ⟨-, tail, bound, wf, records⟩ := inv
    rw [written]
    refine ⟨nextIdx_lt _ _, tail, bound, Memory.wf_write _ _ wf, fun c hc => ?_⟩
    rcases Memory.mem_write hc with rfl | old
    · exact ⟨headIdx_lt s, legal⟩
    · exact records c old

theorem queueInv_tickEnq {s : State} (inv : QueueInv s) : QueueInv (tickEnq s) := by
  unfold tickEnq
  split
  · exact queueInv_enq (tickEvent_legal s) inv
  · exact inv

theorem queueInv_tovBody {s : State} (inv : QueueInv s) : QueueInv (tovBody s) := by
  have counted : QueueInv { s with overflowCount := s.overflowCount + 1, ovfFlag := false } := inv
  exact queueInv_tickEnq counted

/-- A Wiegand service leaves the queue alone. -/
theorem queueInv_wgBody (bit : Bool) {s : State} (inv : QueueInv s) : QueueInv (wgBody bit s) := inv

theorem queueInv_service {src : IrqSource} (body : State → State) {s : State}
    (kept : ∀ t, QueueInv t → QueueInv (body t)) (inv : QueueInv s) : QueueInv (service src body s) := by
  rcases service_cases src body s with ⟨-, run⟩ | ⟨-, blocked⟩
  · have entered : QueueInv (irqEnter src s) := by cases src <;> exact inv
    rw [run]
    exact kept _ entered
  · rw [blocked]; exact inv

theorem queueInv_service_enq {src : IrqSource} {event : State → EdgeEvent} {s : State}
    (legal : ∀ u, (event u).legal = true) (inv : QueueInv s) :
    QueueInv (service src (fun u => enq (event u) u) s) :=
  queueInv_service _ (fun u => queueInv_enq (legal u)) inv

theorem exec_irq_queueInv {i : Instr} {s t : State} (agent : i.agent = .irq) (h : exec i s = .next t)
    (inv : QueueInv s) : QueueInv t := by
  cases i with
  | isrCapt => cases h; exact queueInv_service_enq captEvent_legal inv
  | isrPca => cases h; exact queueInv_service_enq pcaEvent_legal inv
  | isrWg0 => cases h; exact queueInv_service (wgBody false) (fun _ => queueInv_wgBody false) inv
  | isrWg1 => cases h; exact queueInv_service (wgBody true) (fun _ => queueInv_wgBody true) inv
  | isrTov => cases h; exact queueInv_service tovBody (fun _ => queueInv_tovBody) inv
  | _ => cases agent

/-! ### The drain keeps to its bound -/

theorem queueInv_drainBegin {s : State} (inv : QueueInv s) : QueueInv (drainBegin s).1 := by
  obtain ⟨head, tail, bound, slots⟩ := inv
  unfold drainBegin
  split
  · exact ⟨head, tail, bound, slots⟩
  · exact ⟨head, tail, Nat.zero_le _, slots⟩

/-- A drain step counts only where the bound is not reached. -/
theorem queueInv_drainStep {s : State} (inv : QueueInv s) : QueueInv (drainStep s).1 := by
  rcases drainStep_cases s with ⟨-, done⟩ | ⟨more, -, event⟩
  · rw [done]; exact inv
  · obtain ⟨head, -, bound, slots⟩ := inv
    obtain ⟨is, os, dispatched, -⟩ := dispatchAll_eq (s.slots.read (tailIdx s))
      { s with qTail := nextIdx s.cfg (tailIdx s), drainN := s.drainN + 1 }
    rw [event, dispatched]
    exact ⟨head, nextIdx_lt _ _, Nat.lt_of_le_of_ne bound more, slots⟩

theorem queueInv_drain {s : State} (inv : QueueInv s) : QueueInv (drain s) := by
  have begun := queueInv_drainBegin inv
  unfold drain
  split
  · exact drainLoop_invariant (P := QueueInv) (fun _ => queueInv_drainStep) _ _ begun
  · exact begun

/-! ### The other polling operations leave the queue alone -/

theorem queueInv_txStep (m : TxStep) {s : State} (inv : QueueInv s) : QueueInv (txStep m s) := by
  rw [txStep_eq]
  exact inv

theorem queueInv_txRun (ms : List TxStep) {s : State} (inv : QueueInv s) : QueueInv (txRun ms s) :=
  txRun_invariant (P := QueueInv) (fun m _ => queueInv_txStep m) ms s inv

theorem queueInv_txStart (ms : List TxStep) {s : State} (inv : QueueInv s) : QueueInv (txStart ms s) := by
  cases ms with
  | nil => exact inv
  | cons m rest => exact queueInv_txStep m inv

theorem queueInv_wgPoll {s : State} (inv : QueueInv s) : QueueInv (wgPoll s) := by
  cases complete : wgComplete s with
  | true =>
    rw [wgPoll_of_complete complete]
    exact queueInv_txRun _ inv
  | false =>
    rw [wgPoll_of_not_complete complete]
    exact inv

theorem queueInv_wgStart {s : State} (inv : QueueInv s) : QueueInv (wgStart s) := by
  cases complete : wgComplete s with
  | true =>
    rw [wgStart_of_complete complete]
    exact inv
  | false =>
    rw [wgStart_of_not_complete complete]
    exact inv

theorem queueInv_resume {s : State} (inv : QueueInv s) : QueueInv (resume s) := by
  unfold resume
  split
  · exact queueInv_txStart _ inv
  · split
    · exact inv
    · exact queueInv_txStep _ inv

theorem queueInv_irReadAt (i : Nat) {s : State} (inv : QueueInv s) : QueueInv (irReadAt i s) := by
  unfold irReadAt
  split <;> exact inv

theorem queueInv_configure (code : Int) {s : State} (inv : QueueInv s) : QueueInv (configure code s) := by
  unfold configure
  split <;> exact inv

theorem queueInv_resetBlock (s : State) : QueueInv (resetBlock s) := by
  have room : 0 < qcap s.cfg := Nat.zero_lt_of_lt (one_lt_qcap s.cfg)
  exact ⟨room, room, Nat.zero_le _, reset_slots_wf, nofun⟩

/-! ### What every step keeps -/

theorem queueInv_whenever {f : State → State} {s : State} (b : Bool) (inv : QueueInv s) (effect : QueueInv (f s)) :
    QueueInv (whenever b f s) := by
  rcases whenever_cases b f s with ⟨-, done⟩ | ⟨-, blocked⟩
  · rw [done]; exact effect
  · rw [blocked]; exact inv

theorem exec_poll_queueInv {i : Instr} {s t : State} (agent : i.agent = .poll) (h : exec i s = .next t)
    (inv : QueueInv s) : QueueInv t := by
  cases i with
  | reset => cases h; exact queueInv_resetBlock s
  | cli | sti | now | register | drainEnd => cases h; exact queueInv_whenever _ inv inv
  | drain => cases h; exact queueInv_whenever _ inv (queueInv_drain inv)
  | drainBegin => cases h; exact queueInv_whenever _ inv (queueInv_drainBegin inv)
  | drainStep => cases h; exact queueInv_whenever _ inv (queueInv_drainStep inv)
  | irread k => cases h; exact queueInv_whenever _ inv (queueInv_irReadAt _ inv)
  | wgpoll => cases h; exact queueInv_whenever _ inv (queueInv_wgPoll inv)
  | tx32 | txcred | txkey => cases h; exact queueInv_whenever _ inv (queueInv_txRun _ inv)
  | _ => cases agent

theorem EnvFrame.queueInv {s t : State} (h : EnvFrame s t) (inv : QueueInv s) : QueueInv t := by
  obtain ⟨n, rest⟩ := h.rest
  have ticked : QueueInv (blankEnv t) := rest ▸ (inv : QueueInv (adv n (blankEnv s)))
  exact ticked

theorem exec_queueInv {i : Instr} {s t : State} (hi : i.agent ≠ .sub) (h : exec i s = .next t) (inv : QueueInv s) :
    QueueInv t := by
  cases agent : i.agent with
  | env => exact (exec_env_frame agent h).queueInv inv
  | irq => exact exec_irq_queueInv agent h inv
  | poll => exact exec_poll_queueInv agent h inv
  | sub => exact absurd agent hi

theorem startOp_queueInv {i : Instr} {s t : State} (h : startOp i s = some t) (inv : QueueInv s) : QueueInv t := by
  cases i with
  | tx32 | txcred | txkey => cases h; exact queueInv_whenever _ inv (queueInv_txStart _ inv)
  | wgpoll => cases h; exact queueInv_whenever _ inv (queueInv_wgStart inv)
  | drain => cases h; exact queueInv_whenever _ inv (queueInv_drainBegin inv)
  | _ => cases h

/-- Settles O55: by what the step performs. The services write legal records at masked places, the drain moves the tail
within the ring and counts within its bound, and nothing else but RESET writes the queue. -/
theorem everyStepKeepsTheQueueInvariant : Obligations.EveryStepKeepsTheQueueInvariant := by
  intro s t inv h
  replace inv : QueueInv { s with stim := s.stim.tail } := inv
  cases step_kind h with
  | nothing h => rwa [h]
  | whole i hi h => exact exec_queueInv hi h inv
  | first i h => exact startOp_queueInv h inv
  | next h => rw [h]; exact queueInv_resume inv
  | provider code h => rw [h]; exact queueInv_configure code inv

end Sys2Proof.Machine

/-! R36 to R38 and R200: the registry's invariant, and the parameters. -/

namespace Sys2Proof.Machine

/-! ### The parameters -/

theorem configure_cfg (code : Int) (s : State) : (configure code s).cfg = s.cfg := by
  unfold configure
  split <;> rfl

/-- No agent writes the parameters, and RESET takes them over. -/
theorem StepFrame.cfg {s t : State} (h : StepFrame s t) : t.cfg = s.cfg := by
  cases h with
  | env h => exact h.field State.cfg fun _ _ => rfl
  | irq h => exact h.field State.cfg
  | poll h => exact h.field State.cfg fun _ _ => rfl
  | reset h => rw [h]; rfl
  | provider code h => rw [h, configure_cfg]

/-! ### The number of entries (R36) -/

theorem whenever_inst_length {f : State → State} {s : State} (b : Bool) (h : (f s).inst.length = s.inst.length) :
    (whenever b f s).inst.length = s.inst.length := by
  rcases whenever_cases b f s with ⟨-, done⟩ | ⟨-, blocked⟩
  · rw [done, h]
  · rw [blocked]

theorem irReadAt_inst_length (i : Nat) (s : State) : (irReadAt i s).inst.length = s.inst.length := by
  unfold irReadAt
  split
  · rfl
  · exact List.length_set

theorem drainStep_inst_length (s : State) : (drainStep s).1.inst.length = s.inst.length := by
  rcases drainStep_cases s with ⟨-, done⟩ | ⟨-, -, event⟩
  · rw [done]
  · obtain ⟨is, os, dispatched, same⟩ := dispatchAll_eq (s.slots.read (tailIdx s))
      { s with qTail := nextIdx s.cfg (tailIdx s), drainN := s.drainN + 1 }
    rw [event, dispatched]
    exact same

theorem drain_inst_length (s : State) : (drain s).inst.length = s.inst.length := by
  have begun : (drainBegin s).1.inst.length = s.inst.length := congrArg List.length (drainBegin_inst s)
  unfold drain
  split
  · exact drainLoop_invariant (P := fun t => t.inst.length = s.inst.length)
      (fun t h => (drainStep_inst_length t).trans h) _ _ begun
  · exact begun

/-- REGISTER adds an entry only where there is room for it. -/
theorem length_inst_whenever_register (I : Instance) (legal : Bool) (s : State) :
    (whenever (registerEnabled s && legal) (registerInst I) s).inst.length = s.inst.length ∨
    (whenever (registerEnabled s && legal) (registerInst I) s).inst.length ≤ s.cfg.nInst := by
  rcases whenever_cases (registerEnabled s && legal) (registerInst I) s with ⟨enabled, done⟩ | ⟨-, blocked⟩
  · obtain ⟨-, -, room, -⟩ := registerEnabled_iff.1 (Bool.and_eq_true_iff.1 enabled).1
    rw [done]
    exact .inr (List.length_append.trans_le room)
  · exact .inl (by rw [blocked])

theorem exec_poll_inst_length {i : Instr} {s t : State} (agent : i.agent = .poll) (h : exec i s = .next t) :
    t.inst.length = s.inst.length ∨ t.inst.length ≤ s.cfg.nInst := by
  cases i with
  | reset => cases h; exact .inr (Nat.zero_le _)
  | register source protocol mask rate => cases h; exact length_inst_whenever_register _ _ s
  | irread k => cases h; exact .inl (whenever_inst_length _ (irReadAt_inst_length _ s))
  | drain => cases h; exact .inl (whenever_inst_length _ (drain_inst_length s))
  | drainStep => cases h; exact .inl (whenever_inst_length _ (drainStep_inst_length s))
  | cli | sti | now | drainEnd => cases h; exact .inl (whenever_inst_length _ rfl)
  | drainBegin => cases h; exact .inl (congrArg List.length (whenever_inst _ (drainBegin_inst s)))
  | wgpoll => cases h; exact .inl (congrArg List.length (whenever_inst _ (wgPoll_inst s)))
  | tx32 | txcred | txkey => cases h; exact .inl (congrArg List.length (whenever_inst _ (txRun_inst _ s)))
  | _ => cases agent

theorem exec_inst_length {i : Instr} {s t : State} (hi : i.agent ≠ .sub) (h : exec i s = .next t) :
    t.inst.length = s.inst.length ∨ t.inst.length ≤ s.cfg.nInst := by
  cases agent : i.agent with
  | env => exact .inl (congrArg List.length ((exec_env_frame agent h).field State.inst fun _ _ => rfl))
  | irq => exact .inl (congrArg List.length ((exec_irq_frame agent h).field State.inst))
  | poll => exact exec_poll_inst_length agent h
  | sub => exact absurd agent hi

/-- No step takes the registry beyond its capacity, unless it was. -/
theorem StepKind.inst_length {s t : State} (h : StepKind s t) :
    t.inst.length = s.inst.length ∨ t.inst.length ≤ s.cfg.nInst := by
  cases h with
  | nothing h => exact .inl (by rw [h])
  | whole i hi h => exact exec_inst_length hi h
  | first i h => exact .inl (congrArg List.length (startOp_inst h))
  | next h => exact .inl (by rw [h, resume_inst])
  | provider code h => exact .inl (by rw [h, configure_inst])

/-! ### The entries (R37, R38) -/

/-- The mask is one that REGISTER allows, and `last_level` is zero or the mask. -/
abbrev LegalEntry (I : Instance) : Prop :=
  registerLegal I.source I.mask = true ∧ (I.lastLevel = 0 ∨ I.lastLevel = I.mask)

theorem oneBit_of_registerLegal {source : Source} {mask : U8} (h : registerLegal source mask = true) :
    oneBit mask = true := (Bool.and_eq_true_iff.1 h).1

/-- One bit of a level is there or not. -/
theorem and_oneBit (level : U8) {mask : U8} (h : oneBit mask = true) : level &&& mask = 0 ∨ level &&& mask = mask := by
  obtain ⟨k, -, rfl⟩ := oneBit_iff.1 h
  have power : BitVec.ofNat 8 (2 ^ k) = BitVec.twoPow 8 k := by
    apply BitVec.eq_of_toNat_eq
    rw [BitVec.toNat_ofNat, BitVec.toNat_twoPow]
  rw [power, BitVec.and_twoPow]
  split
  · exact .inr rfl
  · exact .inl rfl

theorem legalEntry_irFallRepeat {I : Instance} (h : LegalEntry I) : LegalEntry (irFallRepeat I).1 := by
  unfold irFallRepeat
  split <;> exact h

theorem legalEntry_irFallBit {I : Instance} (delta : Int) (ts : U32) (h : LegalEntry I) :
    LegalEntry (irFallBit delta ts I).1 := by
  unfold irFallBit
  split <;> exact h

theorem legalEntry_irFall {I : Instance} (delta : Int) (ts : U32) (h : LegalEntry I) :
    LegalEntry (irFall delta ts I).1 := by
  rcases irFall_cases delta ts I with arm | ⟨-, arm⟩ | arm | arm | ⟨-, arm⟩ <;> rw [arm]
  · exact h
  · exact h
  · exact legalEntry_irFallRepeat h
  · exact h
  · exact legalEntry_irFallBit delta ts h

theorem legalEntry_irRise {I : Instance} (delta : Int) (h : LegalEntry I) : LegalEntry (irRise delta I).1 := by
  unfold irRise
  split
  · exact h
  · split <;> exact h

/-- The decoder writes none of the fields that dispatch and REGISTER write. -/
theorem legalEntry_irEdge {I : Instance} (kind : EdgeKind) (delta units : Int) (ts : U32) (h : LegalEntry I) :
    LegalEntry (irEdge kind delta units ts I).1 := by
  cases kind with
  | fall => exact legalEntry_irFall delta ts h
  | rise => exact legalEntry_irRise delta h
  | tick => exact h

theorem legalEntry_dispatchInst (e : EdgeEvent) (I : Instance) (h : LegalEntry I) : LegalEntry (dispatchInst e I).1 := by
  unfold dispatchInst
  split
  · exact h
  · rw [handle_eq]
    exact legalEntry_irEdge _ _ _ _ ⟨h.1, and_oneBit e.level (oneBit_of_registerLegal h.1)⟩

theorem legalEntry_irReadInst (I : Instance) (h : LegalEntry I) : LegalEntry (irReadInst I).2 := by
  unfold irReadInst
  split <;> exact h

/-- A new entry takes its mask as the level last seen (R200). -/
theorem legalEntry_newInstance (source : Source) (protocol : Protocol) (mask : U8) (rate : ClockRate)
    (legal : registerLegal source mask = true) : LegalEntry (newInstance source protocol mask rate) :=
  ⟨legal, .inr rfl⟩

/-- Settles O57: REGISTER checks the capacity and the mask, and dispatch records a masked level. -/
theorem everyStepKeepsTheRegistryInvariant : Obligations.EveryStepKeepsTheRegistryInvariant := by
  intro s t ⟨capacity, entries⟩ h
  have cfg : t.cfg = s.cfg := (step_frame h).cfg
  have kept : KeptByRegistryOps LegalEntry := ⟨legalEntry_dispatchInst, legalEntry_irReadInst, legalEntry_newInstance⟩
  refine ⟨⟨?_, kept.step h entries⟩, cfg⟩
  rw [cfg]
  exact (step_kind h).inst_length.elim (fun same => same.trans_le capacity) id

end Sys2Proof.Machine

/-! R53 and R380: the invariants after reset. -/

namespace Sys2Proof.Machine

theorem reset_eq_resetBlock : State.reset = resetBlock State.reset := rfl

theorem settled_reset : Settled State.reset := ⟨rfl, rfl, rfl, rfl, rfl, rfl⟩

/-- Settles O60: RESET establishes the clock, queue and Wiegand invariants, the registry is empty, and nothing is being
sent. -/
theorem resetMeetsTheInvariants : Obligations.ResetMeetsTheInvariants := by
  refine ⟨?clock, ?queue, nofun, ⟨Nat.zero_le _, nofun⟩, ?wiegand, settled_reset.pollInv⟩
  case clock => rw [reset_eq_resetBlock]; exact clockInv_resetBlock _
  case queue => rw [reset_eq_resetBlock]; exact queueInv_resetBlock _
  case wiegand => rw [reset_eq_resetBlock]; exact wiegandInv_resetBlock _

end Sys2Proof.Machine
